-- ==== Sys2Proof/Word.lean ====
section
/-! DEFINITION. The widths of the machine: bytes, words, the fields of an instruction, register indices.
Every quantity is unsigned (00_scope.md R9). -/

namespace Sys2Proof

/-- 8 bits: a general register, a byte of the image, the delay timer, `key`, `rnd` (00_scope.md R6). -/
abbrev Byte := BitVec 8

/-- 16 bits: an instruction word, `I`, `pc`, a stack entry (00_scope.md R6). -/
abbrev Word := BitVec 16

/-- A 4-bit instruction field (`class`, `N`). -/
abbrev Nibble := BitVec 4

/-- The 12-bit instruction field `NNN`. -/
abbrev Addr := BitVec 12

/-- The index of a general register, 0 to 15 (10_state.md R20). -/
abbrev Reg := Fin 16

/-- `VF`, the flag register: `V[15]` (10_state.md R21). -/
abbrev VF : Reg := 15

end Sys2Proof
end

