-- ==== Sys2Proof/Config.lean ====
section
/-! DEFINITION. What the document fixes (00_scope.md R6), the named parameters of a machine with their defaults (R7), and
the free values of the inputs that no pending event names. -/

namespace Sys2Proof

/-- How many bytes the image has (20_memory.md R50). -/
def Config.imageBytes : Nat := 4096

/-- Where `LoadProgram` puts the first byte, and where `pc` starts (00_scope.md R6). -/
def Config.programBase : Nat := 0x200

/-- The two readings of `FX29_OPERAND` (00_scope.md R7): the font is indexed by the field `X`, or by `V[X]`. -/
inductive Fx29Operand where
  | field
  | register
  deriving DecidableEq, Repr

/-- The 80 bytes of a font, five to a glyph, digits 0 to 9 then A to F (20_memory.md R52, R53). -/
abbrev Font := Vector Byte 80

/-- The parameters a machine is built with (00_scope.md R7; 92_eei_decisions.md, the rows marked `OPEN`; log 23). -/
structure Params where
  /-- `STACK_DEPTH`: how many entries the call stack can hold (10_state.md R26). -/
  stackDepth : Nat
  /-- `FONT`: the bytes installed at address 0 (20_memory.md R52). -/
  font : Font
  /-- `FX29_OPERAND`: what `FX29` indexes the font by (44_key_timer_mem.md R167). -/
  fx29Operand : Fx29Operand
  deriving DecidableEq, Repr

/-- The default of `FONT` as a list (20_memory.md R53). Glyph A is the document's; the other 15 are PRESUMED (the customary
CHIP-8 font), unsafe (log 4). -/
def Config.fontBytes : List Byte :=
  [0xF0, 0x90, 0x90, 0x90, 0xF0] ++ [0x20, 0x60, 0x20, 0x20, 0x70] ++
  [0xF0, 0x10, 0xF0, 0x80, 0xF0] ++ [0xF0, 0x10, 0xF0, 0x10, 0xF0] ++
  [0x90, 0x90, 0xF0, 0x10, 0x10] ++ [0xF0, 0x80, 0xF0, 0x10, 0xF0] ++
  [0xF0, 0x80, 0xF0, 0x90, 0xF0] ++ [0xF0, 0x10, 0x20, 0x40, 0x40] ++
  [0xF0, 0x90, 0xF0, 0x90, 0xF0] ++ [0xF0, 0x90, 0xF0, 0x10, 0xF0] ++
  [0xF0, 0x90, 0xF0, 0x90, 0x90] ++ [0xE0, 0x90, 0xE0, 0x90, 0xE0] ++
  [0xF0, 0x80, 0x80, 0x80, 0xF0] ++ [0xE0, 0x90, 0x90, 0x90, 0xE0] ++
  [0xF0, 0x80, 0xF0, 0x80, 0xF0] ++ [0xF0, 0x80, 0xF0, 0x80, 0x80]

/-- The defaults of the parameters (00_scope.md R7): `STACK_DEPTH` 16 (DESIGN CHOICE of the spec, D4, log 8), `FONT` the
customary one (D12, log 4), `FX29_OPERAND` the field (DESIGN CHOICE of the spec, D10, log 9); unsafe for a claim that
rests on one of them. -/
def Config.defaults : Params where
  stackDepth := 16
  font := ⟨⟨Config.fontBytes⟩, rfl⟩
  fx29Operand := .field

/-- The key byte of the n-th `Tick` that no pending event names: a free value, nothing constrains it
(10_state.md R33, log 2, safe). -/
opaque Config.freeKey : Nat → Byte

/-- The random byte of the n-th `Tick` that no pending event names: a free value, nothing constrains it
(42_alu.md R141: "a free 8-bit input with no law"; log 2, safe). -/
opaque Config.freeRnd : Nat → Byte

end Sys2Proof
end

