-- ==== Sys2Proof/Syntax.lean ====
section
/-! DEFINITION. The instructions, one constructor per row of spec/opcode_table.json (30_encoding.md R74), the
fields of an instruction word (R71), and the reasons a word is no instruction (R76). -/

namespace Sys2Proof

/-- The instructions. An operand has the type of its field, so that every value of it is one the encoding admits;
the bits that dispatch ignores (R75) are no operands. -/
inductive Instr where
  | cls                                       -- 0??0  CLS
  | ret                                       -- 0??E  RET
  | jp (nnn : Addr)                           -- 1NNN  JP NNN
  | call (nnn : Addr)                         -- 2NNN  CALL NNN
  | seImm (x : Reg) (nn : Byte)               -- 3XNN  SE Vx, NN
  | sneImm (x : Reg) (nn : Byte)              -- 4XNN  SNE Vx, NN
  | seReg (x y : Reg)                         -- 5XY?  SE Vx, Vy
  | ldImm (x : Reg) (nn : Byte)               -- 6XNN  LD Vx, NN
  | addImm (x : Reg) (nn : Byte)              -- 7XNN  ADD Vx, NN
  | ldReg (x y : Reg)                         -- 8XY0  LD Vx, Vy
  | or (x y : Reg)                            -- 8XY1  OR Vx, Vy
  | and (x y : Reg)                           -- 8XY2  AND Vx, Vy
  | xor (x y : Reg)                           -- 8XY3  XOR Vx, Vy
  | addReg (x y : Reg)                        -- 8XY4  ADD Vx, Vy
  | sub (x y : Reg)                           -- 8XY5  SUB Vx, Vy
  | shr (x : Reg)                             -- 8XY6  SHR Vx
  | subn (x y : Reg)                          -- 8XY7  SUBN Vx, Vy
  | shl (x : Reg)                             -- 8XYE  SHL Vx
  | sneReg (x y : Reg)                        -- 9XY?  SNE Vx, Vy
  | ldI (nnn : Addr)                          -- ANNN  LD I, NNN
  | jpV0 (nnn : Addr)                         -- BNNN  JP V0, NNN
  | rnd (x : Reg) (nn : Byte)                 -- CXNN  RND Vx, NN
  | drw (x y : Reg) (n : Nibble)              -- DXYN  DRW Vx, Vy, N
  | skp (x : Reg)                             -- EX9E  SKP Vx
  | sknp (x : Reg)                            -- EXA1  SKNP Vx
  | ldFromDt (x : Reg)                        -- FX07  LD Vx, DT
  | ldKey (x : Reg)                           -- FX0A  LD Vx, K
  | ldToDt (x : Reg)                          -- FX15  LD DT, Vx
  | ldSt (x : Reg)                            -- FX18  LD ST, Vx
  | addI (x : Reg)                            -- FX1E  ADD I, Vx
  | ldFont (x : Reg)                          -- FX29  LD F, Vx
  | ldBcd (x : Reg)                           -- FX33  LD B, Vx
  | dump (x : Reg)                            -- FX55  LD [I], Vx
  | load (x : Reg)                            -- FX65  LD Vx, [I]
  deriving DecidableEq, Repr

/-- The fields of a 16-bit word, as `Decode` returns them (00_scope.md R11, 40_engine.md R93). -/
structure Fields where
  opClass : Nibble
  x       : Reg
  y       : Reg
  n       : Nibble
  nn      : Byte
  nnn     : Addr
  deriving DecidableEq, Repr

/-- Why bytes are no instruction: fewer than two of them, or a word that matches no row, by its class and the
sub-code found (30_encoding.md R76). -/
inductive DecodeReject where
  | truncated
  | class0 (n : Nibble)
  | class8 (n : Nibble)
  | classE (nn : Byte)
  | classF (nn : Byte)
  deriving DecidableEq, Repr

end Sys2Proof
end

