-- ==== Sys2Proof/WellFormed.lean ====
section
/-! DEFINITION. The checks: which words select a row of the opcode map, written as the map's own masks and values
(30_encoding.md R74), independent of the decoder; which programs fit; which key bytes the driver promises.
An `Instr` needs no check of its own: the type of each operand is exactly its field. -/

namespace Sys2Proof

/-- One row of the opcode map: the word `w` selects it when `w & mask = value` (30_encoding.md R74). -/
structure Row where
  mask  : Word
  value : Word
  deriving DecidableEq, Repr

/-- The word selects the row (30_encoding.md R74). -/
def Row.selects (r : Row) (w : Word) : Bool := (w &&& r.mask) == r.value

/-- The 34 rows, in the map's order (30_encoding.md R74). -/
def opcodeRows : List Row :=
  [⟨0xF00F, 0x0000⟩, ⟨0xF00F, 0x000E⟩, ⟨0xF000, 0x1000⟩, ⟨0xF000, 0x2000⟩,
   ⟨0xF000, 0x3000⟩, ⟨0xF000, 0x4000⟩, ⟨0xF000, 0x5000⟩, ⟨0xF000, 0x6000⟩, ⟨0xF000, 0x7000⟩] ++
  [⟨0xF00F, 0x8000⟩, ⟨0xF00F, 0x8001⟩, ⟨0xF00F, 0x8002⟩, ⟨0xF00F, 0x8003⟩, ⟨0xF00F, 0x8004⟩,
   ⟨0xF00F, 0x8005⟩, ⟨0xF00F, 0x8006⟩, ⟨0xF00F, 0x8007⟩, ⟨0xF00F, 0x800E⟩] ++
  [⟨0xF000, 0x9000⟩, ⟨0xF000, 0xA000⟩, ⟨0xF000, 0xB000⟩, ⟨0xF000, 0xC000⟩, ⟨0xF000, 0xD000⟩,
   ⟨0xF0FF, 0xE09E⟩, ⟨0xF0FF, 0xE0A1⟩] ++
  [⟨0xF0FF, 0xF007⟩, ⟨0xF0FF, 0xF00A⟩, ⟨0xF0FF, 0xF015⟩, ⟨0xF0FF, 0xF018⟩, ⟨0xF0FF, 0xF01E⟩,
   ⟨0xF0FF, 0xF029⟩, ⟨0xF0FF, 0xF033⟩, ⟨0xF0FF, 0xF055⟩, ⟨0xF0FF, 0xF065⟩]

/-- The word is an instruction: it selects a row (30_encoding.md R74, R76). -/
def wellFormedWord (w : Word) : Bool := opcodeRows.any (·.selects w)

/-- The row an instruction is named after (30_encoding.md R74). -/
def Instr.row : Instr → Row
  | .cls => ⟨0xF00F, 0x0000⟩
  | .ret => ⟨0xF00F, 0x000E⟩
  | .jp _ => ⟨0xF000, 0x1000⟩
  | .call _ => ⟨0xF000, 0x2000⟩
  | .seImm _ _ => ⟨0xF000, 0x3000⟩
  | .sneImm _ _ => ⟨0xF000, 0x4000⟩
  | .seReg _ _ => ⟨0xF000, 0x5000⟩
  | .ldImm _ _ => ⟨0xF000, 0x6000⟩
  | .addImm _ _ => ⟨0xF000, 0x7000⟩
  | .ldReg _ _ => ⟨0xF00F, 0x8000⟩
  | .or _ _ => ⟨0xF00F, 0x8001⟩
  | .and _ _ => ⟨0xF00F, 0x8002⟩
  | .xor _ _ => ⟨0xF00F, 0x8003⟩
  | .addReg _ _ => ⟨0xF00F, 0x8004⟩
  | .sub _ _ => ⟨0xF00F, 0x8005⟩
  | .shr _ => ⟨0xF00F, 0x8006⟩
  | .subn _ _ => ⟨0xF00F, 0x8007⟩
  | .shl _ => ⟨0xF00F, 0x800E⟩
  | .sneReg _ _ => ⟨0xF000, 0x9000⟩
  | .ldI _ => ⟨0xF000, 0xA000⟩
  | .jpV0 _ => ⟨0xF000, 0xB000⟩
  | .rnd _ _ => ⟨0xF000, 0xC000⟩
  | .drw _ _ _ => ⟨0xF000, 0xD000⟩
  | .skp _ => ⟨0xF0FF, 0xE09E⟩
  | .sknp _ => ⟨0xF0FF, 0xE0A1⟩
  | .ldFromDt _ => ⟨0xF0FF, 0xF007⟩
  | .ldKey _ => ⟨0xF0FF, 0xF00A⟩
  | .ldToDt _ => ⟨0xF0FF, 0xF015⟩
  | .ldSt _ => ⟨0xF0FF, 0xF018⟩
  | .addI _ => ⟨0xF0FF, 0xF01E⟩
  | .ldFont _ => ⟨0xF0FF, 0xF029⟩
  | .ldBcd _ => ⟨0xF0FF, 0xF033⟩
  | .dump _ => ⟨0xF0FF, 0xF055⟩
  | .load _ => ⟨0xF0FF, 0xF065⟩

/-- The bits of the row's word that hold an operand: all but the row's fixed bits and the bits that dispatch or
the instruction ignores (30_encoding.md R75; the `fields` of spec/opcode_table.json). -/
def Instr.operandMask : Instr → Word
  | .cls | .ret => 0x0000
  | .jp _ | .call _ | .ldI _ | .jpV0 _ => 0x0FFF
  | .seImm _ _ | .sneImm _ _ | .ldImm _ _ | .addImm _ _ | .rnd _ _ => 0x0FFF
  | .seReg _ _ | .sneReg _ _ => 0x0FF0
  | .ldReg _ _ | .or _ _ | .and _ _ | .xor _ _ | .addReg _ _ | .sub _ _ | .subn _ _ => 0x0FF0
  | .drw _ _ _ => 0x0FFF
  | .shr _ | .shl _ => 0x0F00
  | .skp _ | .sknp _ => 0x0F00
  | .ldFromDt _ | .ldKey _ | .ldToDt _ | .ldSt _ | .addI _ => 0x0F00
  | .ldFont _ | .ldBcd _ | .dump _ | .load _ => 0x0F00

/-- A program fits in the image: `0x200 + len ≤ 4096` (20_memory.md R54, 70_reset_and_hazards.md R202). -/
def programFits (bytes : List Byte) : Bool :=
  decide (Config.programBase + bytes.length ≤ Config.imageBytes)

/-- The key byte is one the input collaborator promises, at most `0x0F` (70_reset_and_hazards.md R203). The engine
does not check it (40_engine.md R96). -/
def keyPromised (key : Byte) : Bool := decide (key.toNat ≤ 0x0F)

end Sys2Proof
end

