-- ==== Sys2Proof/Decode.lean ====
section
/-! DEFINITION. The decoder (40_engine.md R93, R94; 30_encoding.md R71 to R76) and after it the encoder. -/

namespace Sys2Proof

/-- The big-endian word of two bytes: the byte at the lower address is the high byte (20_memory.md R55). -/
def wordOfBytes (hi lo : Byte) : Word := hi ++ lo

/-- The byte of a word that lies at the lower address (20_memory.md R55). -/
def highByte (w : Word) : Byte := w.extractLsb' 8 8

/-- The byte of a word that lies at the higher address (20_memory.md R55). -/
def lowByte (w : Word) : Byte := w.extractLsb' 0 8

/-- A 4-bit field as a register index: all 16 values are legal (30_encoding.md R72). -/
def regOfNibble (b : Nibble) : Reg := ⟨b.toNat, b.isLt⟩

/-- `Decode(w)`: the fields of any word; pure and total (40_engine.md R93). -/
def fieldsOf (w : Word) : Fields :=
  { opClass := w.extractLsb' 12 4
    x := regOfNibble (w.extractLsb' 8 4)
    y := regOfNibble (w.extractLsb' 4 4)
    n := w.extractLsb' 0 4
    nn := w.extractLsb' 0 8
    nnn := w.extractLsb' 0 12 }

/-- Class 0 looks at `N` only (30_encoding.md R75, R76). -/
def dispatchClass0 (f : Fields) : Except DecodeReject Instr :=
  match f.n.toNat with
  | 0x0 => .ok .cls
  | 0xE => .ok .ret
  | _ => .error (.class0 f.n)

/-- Class 8 selects by `N` (30_encoding.md R73, R76). -/
def dispatchClass8 (f : Fields) : Except DecodeReject Instr :=
  match f.n.toNat with
  | 0x0 => .ok (.ldReg f.x f.y)
  | 0x1 => .ok (.or f.x f.y)
  | 0x2 => .ok (.and f.x f.y)
  | 0x3 => .ok (.xor f.x f.y)
  | 0x4 => .ok (.addReg f.x f.y)
  | 0x5 => .ok (.sub f.x f.y)
  | 0x6 => .ok (.shr f.x)
  | 0x7 => .ok (.subn f.x f.y)
  | 0xE => .ok (.shl f.x)
  | _ => .error (.class8 f.n)

/-- Class E selects by `NN` (30_encoding.md R73, R76). -/
def dispatchClassE (f : Fields) : Except DecodeReject Instr :=
  match f.nn.toNat with
  | 0x9E => .ok (.skp f.x)
  | 0xA1 => .ok (.sknp f.x)
  | _ => .error (.classE f.nn)

/-- Class F selects by `NN` (30_encoding.md R73, R76). -/
def dispatchClassF (f : Fields) : Except DecodeReject Instr :=
  match f.nn.toNat with
  | 0x07 => .ok (.ldFromDt f.x)
  | 0x0A => .ok (.ldKey f.x)
  | 0x15 => .ok (.ldToDt f.x)
  | 0x18 => .ok (.ldSt f.x)
  | 0x1E => .ok (.addI f.x)
  | 0x29 => .ok (.ldFont f.x)
  | 0x33 => .ok (.ldBcd f.x)
  | 0x55 => .ok (.dump f.x)
  | 0x65 => .ok (.load f.x)
  | _ => .error (.classF f.nn)

/-- The row selection: by class first, then by `N` in classes 0 and 8 and by `NN` in classes E and F
(30_encoding.md R73, 40_engine.md R94). -/
def dispatch (f : Fields) : Except DecodeReject Instr :=
  match f.opClass.toNat with
  | 0x0 => dispatchClass0 f
  | 0x1 => .ok (.jp f.nnn)
  | 0x2 => .ok (.call f.nnn)
  | 0x3 => .ok (.seImm f.x f.nn)
  | 0x4 => .ok (.sneImm f.x f.nn)
  | 0x5 => .ok (.seReg f.x f.y)
  | 0x6 => .ok (.ldImm f.x f.nn)
  | 0x7 => .ok (.addImm f.x f.nn)
  | 0x8 => dispatchClass8 f
  | 0x9 => .ok (.sneReg f.x f.y)
  | 0xA => .ok (.ldI f.nnn)
  | 0xB => .ok (.jpV0 f.nnn)
  | 0xC => .ok (.rnd f.x f.nn)
  | 0xD => .ok (.drw f.x f.y f.n)
  | 0xE => dispatchClassE f
  | _ => dispatchClassF f

/-- The instruction of a word, or the reason it is none. -/
def decodeWord (w : Word) : Except DecodeReject Instr := dispatch (fieldsOf w)

/-- The instruction at the front of a byte sequence: two bytes, high byte first (30_encoding.md R70). -/
def decodeBytes : List Byte → Except DecodeReject Instr
  | hi :: lo :: _ => decodeWord (wordOfBytes hi lo)
  | _ => .error .truncated

/-- A register index as a 4-bit field. -/
def nibbleOfReg (r : Reg) : Nibble := BitVec.ofNat 4 r.val

/-- Format A: class and address (30_encoding.md R71). -/
def formatA (opClass : Nibble) (nnn : Addr) : Word := opClass ++ nnn

/-- Format I: class, register, immediate or function code (30_encoding.md R71). -/
def formatI (opClass : Nibble) (x : Reg) (nn : Byte) : Word := opClass ++ (nibbleOfReg x ++ nn)

/-- Format R: class, two registers, function code or height (30_encoding.md R71). -/
def formatR (opClass : Nibble) (x y : Reg) (n : Nibble) : Word :=
  opClass ++ (nibbleOfReg x ++ (nibbleOfReg y ++ n))

/-- The word of an instruction. Ignored bits are 0, but for class 0, where they are those of `00E0` and `00EE`
(30_encoding.md R79). -/
def encode : Instr → Word
  | .cls => 0x00E0
  | .ret => 0x00EE
  | .jp nnn => formatA 0x1 nnn
  | .call nnn => formatA 0x2 nnn
  | .seImm x nn => formatI 0x3 x nn
  | .sneImm x nn => formatI 0x4 x nn
  | .seReg x y => formatR 0x5 x y 0x0
  | .ldImm x nn => formatI 0x6 x nn
  | .addImm x nn => formatI 0x7 x nn
  | .ldReg x y => formatR 0x8 x y 0x0
  | .or x y => formatR 0x8 x y 0x1
  | .and x y => formatR 0x8 x y 0x2
  | .xor x y => formatR 0x8 x y 0x3
  | .addReg x y => formatR 0x8 x y 0x4
  | .sub x y => formatR 0x8 x y 0x5
  | .shr x => formatR 0x8 x 0 0x6
  | .subn x y => formatR 0x8 x y 0x7
  | .shl x => formatR 0x8 x 0 0xE
  | .sneReg x y => formatR 0x9 x y 0x0
  | .ldI nnn => formatA 0xA nnn
  | .jpV0 nnn => formatA 0xB nnn
  | .rnd x nn => formatI 0xC x nn
  | .drw x y n => formatR 0xD x y n
  | .skp x => formatI 0xE x 0x9E
  | .sknp x => formatI 0xE x 0xA1
  | .ldFromDt x => formatI 0xF x 0x07
  | .ldKey x => formatI 0xF x 0x0A
  | .ldToDt x => formatI 0xF x 0x15
  | .ldSt x => formatI 0xF x 0x18
  | .addI x => formatI 0xF x 0x1E
  | .ldFont x => formatI 0xF x 0x29
  | .ldBcd x => formatI 0xF x 0x33
  | .dump x => formatI 0xF x 0x55
  | .load x => formatI 0xF x 0x65

/-- The 16-bit word of a table row's number: its bits from `nbits` up are 0. -/
def tableWord (nbits w : Nat) : Word := BitVec.ofNat 16 (w % 2 ^ nbits)

/-- The instruction the decoder reads from a table row's bits, laid out as the hardware stores them. -/
def decodeTableWord (nbits w : Nat) : Option Instr :=
  match decodeBytes [highByte (tableWord nbits w), lowByte (tableWord nbits w)] with
  | .ok i => some i
  | .error _ => none

end Sys2Proof
end

