-- ==== Sys2Proof/Machine/State.lean ====
section
/-! DEFINITION. The state of the machine as plain data (10_state.md R20 to R37), the events (R33), the reasons a
step can stop, and the state after reset (R37). -/

namespace Sys2Proof.Machine

/-- The memory image: the bytes that differ from its reset contents, by strictly rising address
(20_memory.md R50). -/
abbrev Memory := List Host.Cell

/-- The reset contents of the image, and so what an unlisted address reads as: `FONT` at 0 to 79, zero above
(20_memory.md R52). -/
def Memory.background (font : Font) (a : Nat) : Byte := if h : a < 80 then font[a] else 0x00

/-- The display buffer, row by row: 32 rows of 64 pixels (10_state.md R28). -/
abbrev Display := Vector (Vector Bool 64) 32

/-- The state of the instruction FSM (10_state.md R30). -/
inductive Fsm where
  | running
  | awaitingKey
  | faulted
  deriving DecidableEq, Repr

/-- The 2-bit encoding of the FSM state (10_state.md R36). -/
def Fsm.code : Fsm → BitVec 2
  | .running => 0
  | .awaitingKey => 1
  | .faulted => 2

/-- `fault_cause` (60_exceptions.md R181). -/
inductive FaultCause where
  | none
  | fetchOutOfBounds
  | illegalInstruction
  | stackUnderflow
  | stackOverflow
  | memReadOutOfBounds
  | memWriteOutOfBounds
  deriving DecidableEq, Repr

/-- The 3-bit code of a cause (60_exceptions.md R181). -/
def FaultCause.code : FaultCause → BitVec 3
  | .none => 0
  | .fetchOutOfBounds => 1
  | .illegalInstruction => 2
  | .stackUnderflow => 3
  | .stackOverflow => 4
  | .memReadOutOfBounds => 5
  | .memWriteOutOfBounds => 6

/-- The four events, the only things that change the state (10_state.md R33). -/
inductive Event where
  | reset
  | loadProgram (bytes : List Byte)
  | tick (key rnd : Byte)
  | timerTick
  deriving DecidableEq, Repr

/-- The state. The fields down to `faultCause` are the spec's (10_state.md R37). The others are the model's own: the
driver's events and their inputs (logs 1, 2, 5, 6), what the last load returned (log 7), and the parameters, which no step
changes (log 23). -/
structure State where
  /-- The general registers `V0` to `VF` (R20). -/
  V : Vector Byte 16
  /-- The address register (R23). -/
  I : Word
  /-- The program counter (R24). -/
  pc : Word
  /-- The call stack, newest entry first (R26). -/
  stack : List Word
  /-- The memory image (R27). -/
  mem : Memory
  /-- The display buffer (R28). -/
  px : Display
  /-- The delay timer (R29). -/
  dt : Byte
  /-- The FSM state (R30). -/
  fsm : Fsm
  /-- The register that waits for a key; it has a meaning only in `awaitingKey` (R30). -/
  waitReg : Reg
  /-- The word most recently decoded (R32). -/
  lastInstr : Word
  /-- The cause of the fault (R36). -/
  faultCause : FaultCause
  /-- Events raised and not yet performed, oldest first (R34, R35; log 1). -/
  pending : List Event
  /-- The key byte of the `Tick` being performed (R33; log 5). -/
  key : Byte
  /-- The random byte of the `Tick` being performed (R33; log 5). -/
  rnd : Byte
  /-- How many `Tick` events took free inputs (log 2). -/
  draws : Nat
  /-- No `Tick` has been issued since the last `Reset` (20_memory.md R54; log 6). -/
  loadWindow : Bool
  /-- The last `LoadProgram` since `Reset` was rejected with `OutOfBounds` (60_exceptions.md R187, 10_state.md R34:
  `load_error`; log 7). -/
  loadError : Bool
  /-- The parameters of this machine (00_scope.md R7; log 23). -/
  params : Params
  deriving DecidableEq, Repr

/-- The reasons the machine stops with a host fault: there is none. The faults of 60_exceptions.md R181 and the load error
of R187 are next states (logs 7, 10). -/
inductive Fault where
  deriving DecidableEq, Repr

/-- The reasons the model gives no meaning. No instruction is refused. -/
inductive Refusal where
  /-- An instruction without a meaning yet; no arm of `exec` answers it. Safe. -/
  | notModelled (mnemonic : String)
  /-- Raised by the event `LoadProgram` after the first `Tick`: "a load after the first `Tick` is not described by
  the document and the model gives it no meaning" (20_memory.md R54). Safe (log 6). -/
  | loadAfterFirstTick
  deriving DecidableEq, Repr

/-- The blank display. -/
def Display.blank : Display := Vector.replicate 32 (Vector.replicate 64 false)

/-- The state after `Reset()`, before any `LoadProgram`, of the machine with the parameters `p` (10_state.md R37). `V`,
`I`, `px`, `dt`, `waitReg` and `lastInstr` are the spec's DESIGN CHOICE D6 (log 3, unsafe); the model's own fields are those
of logs 1, 2, 5, 6, 7, 23. -/
def State.launch (p : Params) : State where
  V := Vector.replicate 16 0x00
  I := 0x0000
  pc := 0x0200
  stack := []
  mem := []
  px := Display.blank
  dt := 0x00
  fsm := .running
  waitReg := 0
  lastInstr := 0x0000
  faultCause := .none
  pending := []
  key := 0x00
  rnd := 0x00
  draws := 0
  loadWindow := true
  loadError := false
  params := p

/-- The state after `Reset()` of the machine with the default parameters (00_scope.md R7, 10_state.md R37). -/
def State.reset : State := State.launch Config.defaults

end Sys2Proof.Machine
end

