-- ==== Sys2Proof/Machine/Flags.lean ====
section
/-! DEFINITION. The values that the flag-writing instructions put into `VF` (10_state.md R21). -/

namespace Sys2Proof.Machine

/-- The carry of an 8-bit addition, the sum taken as an integer (42_alu.md R135). -/
def carryFlag (a b : Byte) : Byte := if a.toNat + b.toNat > 255 then 0x01 else 0x00

/-- The borrow of `a - b`: 1 when a borrow occurs (42_alu.md R136, R138). -/
def borrowFlag (a b : Byte) : Byte := if b.toNat > a.toNat then 0x01 else 0x00

/-- The original least significant bit (42_alu.md R137). -/
def shrFlag (a : Byte) : Byte := a &&& 0x01

/-- Bits 7 to 3 of the operand, the preserved defect (42_alu.md R139). -/
def shlFlag (a : Byte) : Byte := a >>> 3

/-- A collision: the pixel was on and the incoming sprite bit is set (43_display.md R151). -/
def collides (old bit : Bool) : Bool := old && bit

end Sys2Proof.Machine
end

