-- ==== Sys2Proof/Machine/Ops.lean ====
section
/-! DEFINITION. The named operations over memory, registers, stack, display and control state, and taking a fault.
Every read and write of the state goes through them. -/

namespace Sys2Proof.Machine

/-! ### The image -/

/-- The byte at an address (00_scope.md R10, `MemRead(addr, 1)`). -/
def Memory.read (font : Font) : Memory → Nat → Byte
  | [], a => Memory.background font a
  | c :: m, a => if c.1 = a then c.2 else Memory.read font m a

/-- Puts a byte at an address, keeping the canonical form: a byte equal to the reset contents is not listed
(00_scope.md R10, `MemWrite(addr, 1, v)`). -/
def Memory.write (font : Font) : Memory → Nat → Byte → Memory
  | [], a, b => if b = Memory.background font a then [] else [(a, b)]
  | c :: m, a, b =>
    if a < c.1 then (if b = Memory.background font a then c :: m else (a, b) :: c :: m)
    else if a = c.1 then (if b = Memory.background font a then m else (a, b) :: m)
    else c :: Memory.write font m a b

/-- Puts a sequence of bytes at ascending addresses (20_memory.md R54). -/
def Memory.writeBytes (font : Font) : Memory → Nat → List Byte → Memory
  | m, _, [] => m
  | m, a, b :: bs => Memory.writeBytes font (Memory.write font m a b) (a + 1) bs

/-- Addresses rise strictly from `lo` on. -/
def Memory.risesFrom : Nat → Memory → Bool
  | _, [] => true
  | lo, c :: m => decide (lo ≤ c.1) && Memory.risesFrom (c.1 + 1) m

/-- The canonical form: strictly rising addresses inside the image, no entry equal to the reset contents. -/
def Memory.wf (font : Font) (m : Memory) : Bool :=
  Memory.risesFrom 0 m && m.all (fun c => decide (c.1 < Config.imageBytes) && c.2 != Memory.background font c.1)

/-- The byte of the image at an address. -/
def State.readMem (s : State) (a : Nat) : Byte := s.mem.read s.params.font a

/-- Stores a byte in the image. -/
def State.writeMem (s : State) (a : Nat) (b : Byte) : State :=
  { s with mem := s.mem.write s.params.font a b }

/-- Stores a sequence of bytes in the image, from an address on. -/
def State.writeMemBytes (s : State) (a : Nat) (bs : List Byte) : State :=
  { s with mem := s.mem.writeBytes s.params.font a bs }

/-- The bounds check of `count` bytes from `base` on, the addresses unbounded integers: the last one lies above 4095
(20_memory.md R58). No byte is no access. -/
def spanOutOfImage (base count : Nat) : Bool := decide (0 < count ∧ base + (count - 1) > 4095)

/-! ### Registers -/

/-- `V[x]` (10_state.md R20). -/
def State.reg (s : State) (x : Reg) : Byte := s.V.get x

/-- `V[x] <- b` (10_state.md R20). -/
def State.setReg (s : State) (x : Reg) (b : Byte) : State := { s with V := s.V.set x.val b x.isLt }

/-- `I <- a` (10_state.md R23). -/
def State.setI (s : State) (a : Word) : State := { s with I := a }

/-- `pc <- a` (10_state.md R24). -/
def State.setPc (s : State) (a : Word) : State := { s with pc := a }

/-- `dt <- b` (10_state.md R29). -/
def State.setDt (s : State) (b : Byte) : State := { s with dt := b }

/-- `if c then pc <- pc + 2`: the skip common to all skip instructions (41_flow.md R118). -/
def State.skipIf (s : State) (c : Bool) : State := s.setPc (if c then s.pc + 2 else s.pc)

/-! ### Call stack -/

/-- The call stack becomes `l`. -/
def State.setStack (s : State) (l : List Word) : State := { s with stack := l }

/-- `Push(v)` (10_state.md R26). -/
def State.push (s : State) (v : Word) : Except FaultCause State :=
  if s.params.stackDepth ≤ s.stack.length then .error .stackOverflow else .ok (s.setStack (v :: s.stack))

/-- `Pop()`: the newest entry, and the state without it (10_state.md R26). -/
def State.pop (s : State) : Except FaultCause (Word × State) :=
  match s.stack with
  | [] => .error .stackUnderflow
  | v :: rest => .ok (v, s.setStack rest)

/-! ### Display -/

/-- The pixel at a column and a row (10_state.md R28). -/
def Display.get (d : Display) (x : Fin 64) (y : Fin 32) : Bool := (Vector.get d y).get x

/-- The display with one pixel replaced. -/
def Display.set (d : Display) (x : Fin 64) (y : Fin 32) (b : Bool) : Display :=
  Vector.set d y.val ((Vector.get d y).set x.val b x.isLt) y.isLt

/-- `px[x][y]` (10_state.md R28). -/
def State.pixel (s : State) (x : Fin 64) (y : Fin 32) : Bool := s.px.get x y

/-- `px[x][y] <- b`. -/
def State.setPixel (s : State) (x : Fin 64) (y : Fin 32) (b : Bool) : State := { s with px := s.px.set x y b }

/-- All 2048 pixels become 0 (43_display.md R150). -/
def State.clearDisplay (s : State) : State := { s with px := Display.blank }

/-! ### Key wait -/

/-- `wait_reg <- x; fsm <- AwaitingKey` (44_key_timer_mem.md R163). -/
def State.enterWait (s : State) (x : Reg) : State := { s with waitReg := x, fsm := .awaitingKey }

/-- `V[wait_reg] <- key; fsm <- Running` (40_engine.md R96). -/
def State.acceptKey (s : State) (key : Byte) : State := { s.setReg s.waitReg key with fsm := .running }

/-! ### Taking a fault

There is no return from a fault: `Faulted` is left only by `Reset` (60_exceptions.md R183). -/

/-- `raise Fault(c)`: `fault_cause <- c; fsm <- Faulted`, and nothing else (60_exceptions.md R182). -/
def State.raiseFault (s : State) (c : FaultCause) : State := { s with faultCause := c, fsm := .faulted }

/-- The end of an instruction that checks before it writes: its result, or the fault taken on the state the
instruction found, so that the fault is precise (60_exceptions.md R182). -/
def State.commit (s : State) (result : Except FaultCause State) : State :=
  match result with
  | .ok t => t
  | .error c => s.raiseFault c

end Sys2Proof.Machine
end

