-- ==== Sys2Proof/Machine/Operands.lean ====
section
/-! DEFINITION. The operand forms: immediates, effective addresses, sprite coordinates, decimal digits
(30_encoding.md R72, 44_key_timer_mem.md R171, 43_display.md R151, R152). -/

namespace Sys2Proof.Machine

/-- `zext_16(NNN)` (30_encoding.md R72). -/
def addrOperand (nnn : Addr) : Word := nnn.zeroExtend 16

/-- `zext_16` of a byte (00_scope.md R9). -/
def byteOperand (b : Byte) : Word := b.zeroExtend 16

/-- The effective address `I + k`, an unbounded integer (44_key_timer_mem.md R171). -/
def State.indexed (s : State) (k : Nat) : Nat := s.I.toNat + k

/-- The font index of `FX29` under either reading of `FX29_OPERAND`, as an address: `5 * X` or `5 * V[X]`
(44_key_timer_mem.md R167). -/
def State.fontAddress (s : State) (operand : Fx29Operand) (x : Reg) : Nat :=
  match operand with
  | .field => 5 * x.val
  | .register => 5 * (s.reg x).toNat

/-- The column of sprite bit `b` of a sprite whose origin is column `x0` (43_display.md R151). -/
def spriteColumn (x0 : Byte) (b : Nat) : Fin 64 := Fin.ofNat 64 (x0.toNat + b)

/-- The row of sprite row `r` of a sprite whose origin is row `y0` (43_display.md R151). -/
def spriteRow (y0 : Byte) (r : Nat) : Fin 32 := Fin.ofNat 32 (y0.toNat + r)

/-- Bit `b` of a sprite row, most significant bit first (43_display.md R151, R152). -/
def spriteBit (row : Byte) (b : Nat) : Bool := row.getLsbD (7 - b)

/-- The hundreds digit (44_key_timer_mem.md R168). -/
def hundredsDigit (a : Byte) : Byte := BitVec.ofNat 8 (a.toNat / 100)

/-- The tens digit (44_key_timer_mem.md R168). -/
def tensDigit (a : Byte) : Byte := BitVec.ofNat 8 (a.toNat / 10 % 10)

/-- The ones digit (44_key_timer_mem.md R168). -/
def onesDigit (a : Byte) : Byte := BitVec.ofNat 8 (a.toNat % 10)

end Sys2Proof.Machine
end

