-- ==== Sys2Proof/Machine/Alu.lean ====
section
/-! DEFINITION. Register loads, arithmetic, logic, shifts, address load, random (42_alu.md). -/

namespace Sys2Proof.Machine

/-- The order of the flag-writing instructions: the flag goes into `VF` first, then the result is computed from the
registers read again and goes into `V[X]` (R128; the spec's decision D8, log 11). -/
def State.flagThenResult (s : State) (x : Reg) (flag : Byte) (result : State → Byte) : State :=
  (s.setReg VF flag).setReg x (result (s.setReg VF flag))

/-- `LD Vx, NN` (R129). -/
def execLdImm (x : Reg) (nn : Byte) (s : State) : Host.Outcome State Fault Refusal :=
  .next (s.setReg x nn)

/-- `ADD Vx, NN`: no flag (R130). -/
def execAddImm (x : Reg) (nn : Byte) (s : State) : Host.Outcome State Fault Refusal :=
  .next (s.setReg x (s.reg x + nn))

/-- `LD Vx, Vy` (R131). -/
def execLdReg (x y : Reg) (s : State) : Host.Outcome State Fault Refusal :=
  .next (s.setReg x (s.reg y))

/-- `OR Vx, Vy`: no flag (R132). -/
def execOr (x y : Reg) (s : State) : Host.Outcome State Fault Refusal :=
  .next (s.setReg x (s.reg x ||| s.reg y))

/-- `AND Vx, Vy`: no flag (R133). -/
def execAnd (x y : Reg) (s : State) : Host.Outcome State Fault Refusal :=
  .next (s.setReg x (s.reg x &&& s.reg y))

/-- `XOR Vx, Vy`: no flag (R134). -/
def execXor (x y : Reg) (s : State) : Host.Outcome State Fault Refusal :=
  .next (s.setReg x (s.reg x ^^^ s.reg y))

/-- `ADD Vx, Vy`: `VF` is the carry (R135). -/
def execAddReg (x y : Reg) (s : State) : Host.Outcome State Fault Refusal :=
  .next (s.flagThenResult x (carryFlag (s.reg x) (s.reg y)) (fun t => t.reg x + t.reg y))

/-- `SUB Vx, Vy`: `VF` is 1 when `V[Y] > V[X]` (R136). -/
def execSub (x y : Reg) (s : State) : Host.Outcome State Fault Refusal :=
  .next (s.flagThenResult x (borrowFlag (s.reg x) (s.reg y)) (fun t => t.reg x - t.reg y))

/-- `SHR Vx`: `VF` is the original bit 0 (R137). -/
def execShr (x : Reg) (s : State) : Host.Outcome State Fault Refusal :=
  .next (s.flagThenResult x (shrFlag (s.reg x)) (fun t => t.reg x >>> 1))

/-- `SUBN Vx, Vy`: `VF` is 1 when `V[X] > V[Y]` (R138). -/
def execSubn (x y : Reg) (s : State) : Host.Outcome State Fault Refusal :=
  .next (s.flagThenResult x (borrowFlag (s.reg y) (s.reg x)) (fun t => t.reg y - t.reg x))

/-- `SHL Vx`: `VF` is `V[X] >> 3`, the preserved defect (R139). -/
def execShl (x : Reg) (s : State) : Host.Outcome State Fault Refusal :=
  .next (s.flagThenResult x (shlFlag (s.reg x)) (fun t => t.reg x <<< 1))

/-- `LD I, NNN` (R140). -/
def execLdI (nnn : Addr) (s : State) : Host.Outcome State Fault Refusal :=
  .next (s.setI (addrOperand nnn))

/-- `RND Vx, NN`: `V[X] <- rnd & NN` (R141). -/
def execRnd (x : Reg) (nn : Byte) (s : State) : Host.Outcome State Fault Refusal :=
  .next (s.setReg x (s.rnd &&& nn))

end Sys2Proof.Machine
end

