-- ==== Sys2Proof/Machine/Flow.lean ====
section
/-! DEFINITION. Control transfer (41_flow.md). On entry `pc` already holds the address of the instruction plus 2. -/

namespace Sys2Proof.Machine

/-- `RET`: `pc <- Pop()` (R110). -/
def execRet (s : State) : Host.Outcome State Fault Refusal :=
  .next (s.commit (match s.pop with
    | .ok (v, t) => .ok (t.setPc v)
    | .error c => .error c))

/-- `JP NNN`: `pc <- zext_16(NNN)` (R111). -/
def execJp (nnn : Addr) (s : State) : Host.Outcome State Fault Refusal :=
  .next (s.setPc (addrOperand nnn))

/-- `CALL NNN`: `Push(pc); pc <- zext_16(NNN)` (R112). -/
def execCall (nnn : Addr) (s : State) : Host.Outcome State Fault Refusal :=
  .next (s.commit (match s.push s.pc with
    | .ok t => .ok (t.setPc (addrOperand nnn))
    | .error c => .error c))

/-- `SE Vx, NN`: skip if `V[X] = NN` (R113). -/
def execSeImm (x : Reg) (nn : Byte) (s : State) : Host.Outcome State Fault Refusal :=
  .next (s.skipIf (s.reg x == nn))

/-- `SNE Vx, NN`: skip if `V[X] ≠ NN` (R114). -/
def execSneImm (x : Reg) (nn : Byte) (s : State) : Host.Outcome State Fault Refusal :=
  .next (s.skipIf (s.reg x != nn))

/-- `SE Vx, Vy`: skip if `V[X] = V[Y]` (R115). -/
def execSeReg (x y : Reg) (s : State) : Host.Outcome State Fault Refusal :=
  .next (s.skipIf (s.reg x == s.reg y))

/-- `SNE Vx, Vy`: skip if `V[X] ≠ V[Y]` (R116). -/
def execSneReg (x y : Reg) (s : State) : Host.Outcome State Fault Refusal :=
  .next (s.skipIf (s.reg x != s.reg y))

/-- `JP V0, NNN`: `pc <- zext_16(V[0]) + zext_16(NNN)` (R117). -/
def execJpV0 (nnn : Addr) (s : State) : Host.Outcome State Fault Refusal :=
  .next (s.setPc (byteOperand (s.reg 0) + addrOperand nnn))

end Sys2Proof.Machine
end

