-- ==== Sys2Proof/Machine/KeyTimerMem.lean ====
section
/-! DEFINITION. Key skips, timer access, key wait, `I` arithmetic, font pointer, BCD, register dump and load
(44_key_timer_mem.md). -/

namespace Sys2Proof.Machine

/-- `SKP Vx`: skip if `V[X] = key` (R160). -/
def execSkp (x : Reg) (s : State) : Host.Outcome State Fault Refusal :=
  .next (s.skipIf (s.reg x == s.key))

/-- `SKNP Vx`: skip if `V[X] ≠ key` (R161). -/
def execSknp (x : Reg) (s : State) : Host.Outcome State Fault Refusal :=
  .next (s.skipIf (s.reg x != s.key))

/-- `LD Vx, DT` (R162). -/
def execLdFromDt (x : Reg) (s : State) : Host.Outcome State Fault Refusal :=
  .next (s.setReg x s.dt)

/-- `LD Vx, K`: enter `AwaitingKey`, remember `X` (R163). -/
def execLdKey (x : Reg) (s : State) : Host.Outcome State Fault Refusal :=
  .next (s.enterWait x)

/-- `LD DT, Vx` (R164). -/
def execLdToDt (x : Reg) (s : State) : Host.Outcome State Fault Refusal :=
  .next (s.setDt (s.reg x))

/-- `LD ST, Vx`: no operation, `X` is read by nothing (R165). -/
def execLdSt (_x : Reg) (s : State) : Host.Outcome State Fault Refusal :=
  .next s

/-- `ADD I, Vx`: modulo 65536, no flag (R166). -/
def execAddI (x : Reg) (s : State) : Host.Outcome State Fault Refusal :=
  .next (s.setI (s.I + byteOperand (s.reg x)))

/-- `I <- zext_16(RAM[5*X])` under either reading of `FX29_OPERAND` (R167). -/
def State.loadFontPointer (s : State) (operand : Fx29Operand) (x : Reg) : State :=
  s.setI (byteOperand (s.readMem (s.fontAddress operand x)))

/-- `LD F, Vx`: the reading is the machine's parameter `FX29_OPERAND` (R167; logs 9, 23). -/
def execLdFont (x : Reg) (s : State) : Host.Outcome State Fault Refusal :=
  .next (s.loadFontPointer s.params.fx29Operand x)

/-- The three digit writes, all to `RAM[I]`, the preserved defect (R168). -/
def State.storeDigits (s : State) (a : Byte) : State :=
  ((s.writeMem (s.indexed 0) (hundredsDigit a)).writeMem (s.indexed 0) (tensDigit a)).writeMem
    (s.indexed 0) (onesDigit a)

/-- `LD B, Vx`: the bounds check comes before any write (R168). -/
def execLdBcd (x : Reg) (s : State) : Host.Outcome State Fault Refusal :=
  .next (s.commit (if spanOutOfImage (s.indexed 0) 1 then .error .memWriteOutOfBounds
    else .ok (s.storeDigits (s.reg x))))

/-- `RAM[I + k] <- V[k]` for `k` below `n`, in ascending order (R169). -/
def State.storeRegs (s : State) : Nat → State
  | 0 => s
  | k + 1 => (State.storeRegs s k).writeMem ((State.storeRegs s k).indexed k)
      ((State.storeRegs s k).reg (Fin.ofNat 16 k))

/-- `V[k] <- RAM[I + k]` for `k` below `n`, in ascending order (R170). -/
def State.loadRegs (s : State) : Nat → State
  | 0 => s
  | k + 1 => (State.loadRegs s k).setReg (Fin.ofNat 16 k)
      ((State.loadRegs s k).readMem ((State.loadRegs s k).indexed k))

/-- `LD [I], Vx`: stores `V[0]` to `V[X-1]` (R169; the spec's decision D21, log 13). -/
def execDump (x : Reg) (s : State) : Host.Outcome State Fault Refusal :=
  .next (s.commit (if spanOutOfImage (s.indexed 0) x.val then .error .memWriteOutOfBounds
    else .ok (s.storeRegs x.val)))

/-- `LD Vx, [I]`: loads `V[0]` to `V[X-1]` (R170; the spec's decision D21, log 13). -/
def execLoad (x : Reg) (s : State) : Host.Outcome State Fault Refusal :=
  .next (s.commit (if spanOutOfImage (s.indexed 0) x.val then .error .memReadOutOfBounds
    else .ok (s.loadRegs x.val)))

end Sys2Proof.Machine
end

