-- ==== Sys2Proof/Machine/Screen.lean ====
section
/-! DEFINITION. The display instructions: clear and XOR sprite draw (43_display.md). -/

namespace Sys2Proof.Machine

/-- `CLS` (R150). -/
def execCls (s : State) : Host.Outcome State Fault Refusal :=
  .next s.clearDisplay

/-- One sprite bit onto one pixel: XOR, and `VF <- 1` on a collision (R151). -/
def State.drawBit (s : State) (x : Fin 64) (y : Fin 32) (bit : Bool) : State :=
  if collides (s.pixel x y) bit then (s.setPixel x y (s.pixel x y ^^ bit)).setReg VF 0x01
  else s.setPixel x y (s.pixel x y ^^ bit)

/-- The first `n` bits of one sprite row, most significant first (R151). -/
def State.drawBits (s : State) (x0 : Byte) (y : Fin 32) (row : Byte) : Nat → State
  | 0 => s
  | b + 1 => (State.drawBits s x0 y row b).drawBit (spriteColumn x0 b) y (spriteBit row b)

/-- The first `n` rows of the sprite at `I`, top to bottom (R151). -/
def State.drawRows (s : State) (x0 y0 : Byte) : Nat → State
  | 0 => s
  | r + 1 =>
    (State.drawRows s x0 y0 r).drawBits x0 (spriteRow y0 r)
      ((State.drawRows s x0 y0 r).readMem ((State.drawRows s x0 y0 r).indexed r)) 8

/-- The draw of `n` rows: `VF` is reset, then the origins are sampled once, then the rows are drawn (R151; the spec's
decision D9, log 11). -/
def State.drawSprite (s : State) (x y : Reg) (n : Nat) : State :=
  (s.setReg VF 0x00).drawRows ((s.setReg VF 0x00).reg x) ((s.setReg VF 0x00).reg y) n

/-- `DRW Vx, Vy, N`: the bounds check comes before any write (R151). -/
def execDrw (x y : Reg) (n : Nibble) (s : State) : Host.Outcome State Fault Refusal :=
  .next (s.commit (if spanOutOfImage (s.indexed 0) n.toNat then .error .memReadOutOfBounds
    else .ok (s.drawSprite x y n.toNat)))

end Sys2Proof.Machine
end

