-- ==== Sys2Proof/Machine/Engine.lean ====
section
/-! DEFINITION. The four events: `Reset`, `LoadProgram`, `Tick`, `TimerTick` (10_state.md R33, 40_engine.md), the
order in which raised events are performed (10_state.md R35), and read-only observation (R35, 60_exceptions.md R192). -/

namespace Sys2Proof.Machine

/-! ### Tick -/

/-- The fetch: the big-endian word at `pc`, or the fault when `pc + 1 > 4095`, both as integers (40_engine.md R91). -/
def State.fetch (s : State) : Except FaultCause Word :=
  if s.pc.toNat + 1 > 4095 then .error .fetchOutOfBounds
  else .ok (wordOfBytes (s.readMem s.pc.toNat) (s.readMem (s.pc.toNat + 1)))

/-- `pc <- pc + 2` and `last_instr <- w`, before the instruction executes (40_engine.md R92, R95; the spec's decision
D18, log 16). -/
def State.advance (s : State) (w : Word) : State := { s with pc := s.pc + 2, lastInstr := w }

/-- The inputs of a `Tick`, sampled (10_state.md R33). -/
def State.sample (s : State) (key rnd : Byte) : State := { s with key := key, rnd := rnd }

/-- Advance, decode and execute a fetched word, or take `IllegalInstruction` (40_engine.md R90, 30_encoding.md R76). -/
def State.runWord (s : State) (w : Word) : Host.Outcome State Fault Refusal :=
  match decodeBytes [highByte w, lowByte w] with
  | .ok i => exec i (s.advance w)
  | .error _ => .next ((s.advance w).raiseFault .illegalInstruction)

/-- `Tick(key, rnd)` (40_engine.md R90). -/
def State.tick (s : State) (key rnd : Byte) : Host.Outcome State Fault Refusal :=
  match s.fsm with
  | .faulted => .next s
  | .awaitingKey => .next (if key = 0x00 then s else s.acceptKey key)
  | .running =>
    match s.fetch with
    | .ok w => (s.sample key rnd).runWord w
    | .error c => .next (s.raiseFault c)

/-! ### TimerTick, LoadProgram, Reset -/

/-- `TimerTick()` (40_engine.md R99). -/
def State.timerTick (s : State) : State :=
  if s.fsm ≠ .faulted ∧ s.dt ≠ 0x00 then s.setDt (s.dt - 1) else s

/-- What a load returns to the driver (60_exceptions.md R187; log 7). -/
def State.setLoadError (s : State) (b : Bool) : State := { s with loadError := b }

/-- `RAM[0x200 + k] <- bytes[k]` (20_memory.md R54). -/
def State.loadBytes (s : State) (bytes : List Byte) : State := s.writeMemBytes Config.programBase bytes

/-- `LoadProgram(bytes)`: the program is copied, or rejected with the engine's state unchanged (20_memory.md R54,
60_exceptions.md R187). -/
def State.loadProgram (s : State) (bytes : List Byte) : Host.Outcome State Fault Refusal :=
  if s.loadWindow = false then .refused .loadAfterFirstTick
  else if programFits bytes = false then .next (s.setLoadError true)
  else .next ((s.loadBytes bytes).setLoadError false)

/-- `Reset()`: every item of the engine's state at its reset value (10_state.md R37, 70_reset_and_hazards.md R200).
What the driver has raised and drives is not the engine's state and stays. -/
def State.resetEngine (s : State) : State :=
  { State.launch s.params with pending := s.pending, key := s.key, rnd := s.rnd, draws := s.draws }

/-! ### Events -/

/-- A `Tick` has been issued since `Reset`: the load window closes (20_memory.md R54). -/
def State.closeLoadWindow (s : State) : State := { s with loadWindow := false }

/-- One event, from start to end (10_state.md R33). -/
def State.perform (s : State) : Event → Host.Outcome State Fault Refusal
  | .reset => .next s.resetEngine
  | .loadProgram bytes => s.loadProgram bytes
  | .tick key rnd => s.closeLoadWindow.tick key rnd
  | .timerTick => .next s.timerTick

/-- The pending events become `l`. -/
def State.setPending (s : State) (l : List Event) : State := { s with pending := l }

/-- One more `Tick` with free inputs. -/
def State.countDraw (s : State) : State := { s with draws := s.draws + 1 }

/-- The event the engine performs next and the state without it: the oldest one raised, or a `Tick` with free inputs
when none is pending (logs 1, 2). -/
def State.takeEvent (s : State) : Event × State :=
  match s.pending with
  | [] => (.tick (Config.freeKey s.draws) (Config.freeRnd s.draws), s.countDraw)
  | e :: rest => (e, s.setPending rest)

/-- The strobes raised in one `clk` cycle, in the order they are performed: the `Tick` first, the `TimerTick` second
(10_state.md R34, R35; the spec's decision D2, log 1). -/
def State.raiseStrobes (s : State) (tick : Option (Byte × Byte)) (timerTick : Bool) : State :=
  s.setPending (s.pending ++ (match tick with | some (key, rnd) => [.tick key rnd] | none => []) ++
    (if timerTick then [.timerTick] else []))

/-- The events pending with a `Tick` in front: as they are when none is pending or the oldest is a `Tick`, else with a
`Tick` of free inputs put before them. -/
def State.pendingFromTick (s : State) : List Event :=
  match s.pending with
  | [] => []
  | .tick key rnd :: rest => .tick key rnd :: rest
  | e :: rest => .tick (Config.freeKey s.draws) (Config.freeRnd s.draws) :: e :: rest

/-! ### Observation -/

/-- What the inspection collaborator may read (10_state.md R35, 60_exceptions.md R192). -/
structure Inspection where
  lastInstr  : Word
  V          : Vector Byte 16
  pc         : Word
  I          : Word
  dt         : Byte
  fsm        : BitVec 2
  waitReg    : Reg
  faultCause : BitVec 3
  stackDepth : Nat
  deriving DecidableEq, Repr

/-- The inspection read: it changes nothing. -/
def State.inspect (s : State) : Inspection :=
  { lastInstr := s.lastInstr, V := s.V, pc := s.pc, I := s.I, dt := s.dt, fsm := s.fsm.code
    waitReg := s.waitReg, faultCause := s.faultCause.code, stackDepth := s.stack.length }

/-- The renderer's read of one pixel by its flat index `y*64 + x` (10_state.md R28, R35). -/
def State.render (s : State) (index : Fin 2048) : Bool :=
  s.pixel (Fin.ofNat 64 index.val) (Fin.ofNat 32 (index.val / 64))

end Sys2Proof.Machine
end

