-- ==== Sys2Proof/Machine/Step.lean ====
section
/-! DEFINITION. One step of the machine: one event, performed from start to end (10_state.md R33). -/

namespace Sys2Proof.Machine

/-- One step: the next event. -/
def step (s : State) : Host.Outcome State Fault Refusal :=
  s.takeEvent.2.perform s.takeEvent.1

/-- `s` with one instruction stored where the next step fetches, so that the very next step runs it: at `pc`, or at
the program base where `pc` cannot be fetched from; the FSM is `running`, and the oldest pending event, if any, is a
`Tick` (log 17). -/
def State.withFetchWord (s : State) (nbits w : Nat) : State :=
  let a : Word := if s.pc.toNat + 1 > 4095 then BitVec.ofNat 16 Config.programBase else s.pc
  { s with
    pc := a
    mem := s.mem.writeBytes s.params.font a.toNat [highByte (tableWord nbits w), lowByte (tableWord nbits w)]
    fsm := .running
    faultCause := .none
    pending := s.pendingFromTick }

end Sys2Proof.Machine
end

