-- ==== Sys2Proof/Safety.lean ====
section
/-! DEFINITION. The terms claims are written in: a live engine, the frame of an instruction, a fault taken, the sprite
that a draw lays over the display, and the invariants that every step keeps. -/

namespace Sys2Proof.Machine

/-- The engine has not faulted: "every claim about a program should carry the premise or the conclusion
`fsm ≠ Faulted`" (60_exceptions.md R183). -/
def State.Live (s : State) : Prop := s.fsm ≠ .faulted

/-- Every word with `w & mask = value` decodes to the instruction that `i` forms from the word's fields: the first line
of every instruction rule (30_encoding.md R74). -/
def Denotes (mask value : Word) (i : Fields → Instr) : Prop :=
  ∀ w : Word, w &&& mask = value → decodeWord w = .ok (i (fieldsOf w))

/-- The parts of the state other than the general registers, by name (10_state.md R37). -/
inductive Part where
  | I | pc | stack | mem | px | dt | fsm | waitReg | lastInstr | faultCause
  | pending | key | rnd | draws | loadWindow | loadError
  deriving DecidableEq, Repr

/-- From `s` to `t` nothing changes but, possibly, the registers of `regs` and the parts of `parts`. The image is
compared by the byte each address reads, the display by each pixel. The parameters never change (log 23). -/
structure Frame (regs : List Reg) (parts : List Part) (s t : State) : Prop where
  regs : ∀ r, r ∉ regs → t.reg r = s.reg r
  I : Part.I ∉ parts → t.I = s.I
  pc : Part.pc ∉ parts → t.pc = s.pc
  stack : Part.stack ∉ parts → t.stack = s.stack
  mem : Part.mem ∉ parts → ∀ a, t.readMem a = s.readMem a
  px : Part.px ∉ parts → ∀ x y, t.pixel x y = s.pixel x y
  dt : Part.dt ∉ parts → t.dt = s.dt
  fsm : Part.fsm ∉ parts → t.fsm = s.fsm
  waitReg : Part.waitReg ∉ parts → t.waitReg = s.waitReg
  lastInstr : Part.lastInstr ∉ parts → t.lastInstr = s.lastInstr
  faultCause : Part.faultCause ∉ parts → t.faultCause = s.faultCause
  pending : Part.pending ∉ parts → t.pending = s.pending
  key : Part.key ∉ parts → t.key = s.key
  rnd : Part.rnd ∉ parts → t.rnd = s.rnd
  draws : Part.draws ∉ parts → t.draws = s.draws
  loadWindow : Part.loadWindow ∉ parts → t.loadWindow = s.loadWindow
  loadError : Part.loadError ∉ parts → t.loadError = s.loadError
  params : t.params = s.params

/-- From `s` to `t` the fault `c` was taken and nothing else happened (60_exceptions.md R182). -/
structure FaultTaken (c : FaultCause) (s t : State) : Prop where
  fsm : t.fsm = .faulted
  cause : t.faultCause = c
  rest : Frame [] [.fsm, .faultCause] s t

/-- The origin a draw samples from a register: 0 from `VF`, which the draw has just reset (43_display.md R151; the
spec's decision D9, log 11). -/
def State.origin (s : State) (x : Reg) : Byte := if x = VF then 0x00 else s.reg x

/-- The sprite of `n` rows at `I`, laid with its origin at `(x0, y0)` on the display that wraps around, has a set bit at
column `cx`, row `cy` (43_display.md R151, R152): the column is `dx` right of the origin and the row `dy` below it,
modulo 64 and 32. -/
def State.spriteAt (s : State) (x0 y0 : Byte) (n : Nat) (cx : Fin 64) (cy : Fin 32) : Bool :=
  let dx := (cx.val + 256 - x0.toNat) % 64
  let dy := (cy.val + 256 - y0.toNat) % 32
  decide (dx < 8) && decide (dy < n) && (s.readMem (s.indexed dy)).getLsbD (7 - dx)

/-- The image is in canonical form. -/
def State.MemCanonical (s : State) : Prop := s.mem.wf s.params.font = true

/-- What the control state keeps to: the stack within its depth (10_state.md R26), the cause `none` exactly while the
engine has not faulted (60_exceptions.md R181), and the load window closed once a `Tick` has left `Running`. -/
structure State.ControlOk (s : State) : Prop where
  depth : s.stack.length ≤ s.params.stackDepth
  cause : s.faultCause = .none ↔ s.fsm ≠ .faulted
  window : s.fsm ≠ .running → s.loadWindow = false

/-- `pc` is at most `0xFF + 0xFFF` (41_flow.md R117) and a return address at most 4096 (R110). -/
structure State.AddressesOk (s : State) : Prop where
  pc : s.pc.toNat ≤ 0x10FE
  stack : ∀ v ∈ s.stack, v.toNat ≤ 0x1000

/-- The diagnostic of a fault is true of the state it left (60_exceptions.md R181): the faulting word is `last_instr`
and the condition of the cause can be seen from the state. -/
def State.Diagnosis (s : State) : Prop :=
  match s.faultCause with
  | .none => True
  | .fetchOutOfBounds => s.pc.toNat + 1 > 4095
  | .illegalInstruction => wellFormedWord s.lastInstr = false
  | .stackUnderflow => decodeWord s.lastInstr = .ok .ret ∧ s.stack = []
  | .stackOverflow => (∃ nnn, decodeWord s.lastInstr = .ok (.call nnn)) ∧ s.stack.length ≥ s.params.stackDepth
  | .memReadOutOfBounds =>
    (∃ x y n, decodeWord s.lastInstr = .ok (.drw x y n) ∧ n.toNat > 0 ∧ s.I.toNat + n.toNat - 1 > 4095) ∨
    (∃ x, decodeWord s.lastInstr = .ok (.load x) ∧ x.val > 0 ∧ s.I.toNat + x.val - 1 > 4095)
  | .memWriteOutOfBounds =>
    (∃ x, decodeWord s.lastInstr = .ok (.ldBcd x) ∧ s.I.toNat > 4095) ∨
    (∃ x, decodeWord s.lastInstr = .ok (.dump x) ∧ x.val > 0 ∧ s.I.toNat + x.val - 1 > 4095)

/-- The engine carries a cause only in `Faulted`, and a true diagnosis of it. -/
structure State.DiagnosisOk (s : State) : Prop where
  faulted : s.faultCause ≠ .none → s.fsm = .faulted
  diagnosis : s.Diagnosis

end Sys2Proof.Machine
end

