-- ==== Sys2Proof/Certificates/Slice0/Obligations.lean ====
section
/-! DEFINITION. The statements for the provers. Each docstring names the rules of the spec it rests on; where a clause
rests on a decision of the spec or on a choice of the model, it says so and names the log entry. -/

open Sys2Proof Sys2Proof.Machine

/-! ### Encoding -/

/-- R93: `Decode(w)` returns the six bit slices of every word. -/
def Obligations.FieldsAreTheBitSlicesOfEveryWord : Prop :=
  ∀ w : Word,
    (fieldsOf w).opClass.toNat = w.toNat / 4096 ∧ (fieldsOf w).x.val = w.toNat / 256 % 16 ∧
    (fieldsOf w).y.val = w.toNat / 16 % 16 ∧ (fieldsOf w).n.toNat = w.toNat % 16 ∧
    (fieldsOf w).nn.toNat = w.toNat % 256 ∧ (fieldsOf w).nnn.toNat = w.toNat % 4096

/-- 30_encoding.md R70 to R74: the decoder reads back every instruction, with every operand at every value, from the
word the encoder writes for it. -/
def Obligations.DecodeOfEncodeIsTheInstruction : Prop :=
  ∀ i : Instr, decodeWord (encode i) = .ok i

/-- 30_encoding.md R71, R75: a word and the encoding of the instruction it decodes to agree on every bit but those
that dispatch and the instruction ignore. -/
def Obligations.EncodeOfDecodeKeepsEveryReadBit : Prop :=
  ∀ (w : Word) (i : Instr), decodeWord w = .ok i →
    w &&& (i.row.mask ||| i.operandMask) = encode i &&& (i.row.mask ||| i.operandMask)

/-- 30_encoding.md R74, R76: the decoder accepts exactly the words that select a row by mask and match, and names the
instruction of the row selected. -/
def Obligations.DecoderAcceptsExactlyTheTableRows : Prop :=
  ∀ w : Word, ((∃ i, decodeWord w = .ok i) ↔ wellFormedWord w = true) ∧
    ∀ i, decodeWord w = .ok i → i.row ∈ opcodeRows ∧ i.row.selects w = true

/-- 30_encoding.md R74: "No two rows overlap". -/
def Obligations.OpcodeRowsNeverOverlap : Prop :=
  ∀ (w : Word) (r r' : Row), r ∈ opcodeRows → r' ∈ opcodeRows → r.selects w = true → r'.selects w = true → r = r'

/-- 30_encoding.md R74, 95_test_vectors.md: words written out from the opcode map, one of each family and of each
level of dispatch, decode to the instruction they stand for. -/
def Obligations.SampleWordsDecode : Prop :=
  decodeWord 0x0ABE = .ok .ret ∧ decodeWord 0x2ABC = .ok (.call 0xABC) ∧
  decodeWord 0x332A = .ok (.seImm 3 0x2A) ∧ decodeWord 0x512F = .ok (.seReg 1 2) ∧
  decodeWord 0x8127 = .ok (.subn 1 2) ∧ decodeWord 0x812E = .ok (.shl 1) ∧
  decodeWord 0xD125 = .ok (.drw 1 2 5) ∧ decodeWord 0xE4A1 = .ok (.sknp 4) ∧
  decodeWord 0xFA29 = .ok (.ldFont 10) ∧ decodeWord 0x8128 = .error (.class8 0x8)

/-! ### Reset, load, fetch, events -/

/-- R52: the image after `Reset`, for every machine's `FONT`. The default one has the document's glyph A (20_memory.md
R53). -/
def Obligations.ResetImageIsFontThenZero : Prop :=
  (∀ s : State,
    (∀ (d r : Nat) (hd : d ≤ 15) (hr : r ≤ 4), s.resetEngine.readMem (5 * d + r) = s.params.font[5 * d + r]) ∧
    (∀ a, 80 ≤ a → a ≤ 4095 → s.resetEngine.readMem a = 0x00)) ∧
  (State.reset.params.font.toList.drop 50).take 5 = [0xF0, 0x90, 0xF0, 0x90, 0x90]

/-- 10_state.md R33(a), R37: a `Reset` event, from any state, a faulted one too, sets every item of the engine's state
to its reset value. The values of `pc`, `fsm` and the image are the document's; the other clauses are choices: the zeros
and the empty stack the spec's decision D6 (log 3), `fault_cause` its decision D3 (log 10); and the model's own, the open
load window (log 6), the cleared load error (log 7), the driver's later events left pending (log 22, DEDUCED), the
parameters left as they are (log 23). -/
def Obligations.ResetEventSetsEveryItem : Prop :=
  ∀ (s : State) (rest : List Event), s.pending = .reset :: rest →
    ∃ t, step s = .next t ∧ t.pc = 0x0200 ∧ t.fsm = .running ∧ t.faultCause = .none ∧ (∀ r, t.reg r = 0x00) ∧
      t.I = 0x0000 ∧ t.stack = [] ∧ t.dt = 0x00 ∧ t.waitReg = 0 ∧ t.lastInstr = 0x0000 ∧
      (∀ x y, t.pixel x y = false) ∧ (∀ a, t.readMem a = Memory.background s.params.font a) ∧
      t.loadWindow = true ∧ t.loadError = false ∧ t.pending = rest ∧ t.params = s.params

/-- 20_memory.md R54, 60_exceptions.md R187: a program that fits is copied to `0x200` on and nothing else of the engine
changes; one that does not is rejected with the engine's state unchanged, `fsm` and `fault_cause` too. What the load
returned is the model's field `loadError` (log 7); that a load after the first `Tick` has no meaning is the spec's decision
D16, and its form the model's (log 6). -/
def Obligations.LoadProgramCopiesOrIsRejected : Prop :=
  ∀ (s : State) (bytes : List Byte),
    (s.MemCanonical → s.loadWindow = true → bytes.length ≤ 3584 → ∃ t, s.perform (.loadProgram bytes) = .next t ∧
      Frame [] [.mem, .loadError] s t ∧ t.loadError = false ∧
      (∀ (k : Nat) (hk : k < bytes.length), t.readMem (0x200 + k) = bytes[k]) ∧
      ∀ a, a < 0x200 ∨ 0x200 + bytes.length ≤ a → t.readMem a = s.readMem a) ∧
    (s.loadWindow = true → 3584 < bytes.length → ∃ t, s.perform (.loadProgram bytes) = .next t ∧
      Frame [] [.loadError] s t ∧ t.loadError = true) ∧
    (s.loadWindow = false → s.perform (.loadProgram bytes) = .refused .loadAfterFirstTick)

/-- 10_state.md R33, R35: a step is one event, the oldest one pending; with none pending it is a `Tick` with free
inputs (the model's choice, logs 1, 2). -/
def Obligations.StepPerformsTheOldestEvent : Prop :=
  ∀ s : State,
    (∀ e rest, s.pending = e :: rest → step s = State.perform { s with pending := rest } e) ∧
    (s.pending = [] → step s = State.perform { s with draws := s.draws + 1 }
      (.tick (Config.freeKey s.draws) (Config.freeRnd s.draws)))

/-- 40_engine.md R90, R92, R95: a step whose event is a `Tick` in `Running` runs the instruction that the two bytes at
`pc` decode to, on the state with `pc` advanced, the word recorded and the inputs sampled. Choices in it: that the word is
recorded before the instruction executes is the spec's decision D18 (log 16); that a step with nothing pending is a `Tick`
with free inputs, which the counter counts, is the model's (logs 1, 2); so are the closing of the load window (log 6) and
the fields of the sampled inputs (log 5). -/
def Obligations.StepRunsTheDecodedInstruction : Prop :=
  ∀ (s : State) (w : Word) (i : Instr), s.fsm = .running → s.pc.toNat ≤ 4094 →
    w.toNat = (s.readMem s.pc.toNat).toNat * 256 + (s.readMem (s.pc.toNat + 1)).toNat → decodeWord w = .ok i →
    (∀ k r rest, s.pending = .tick k r :: rest →
      step s = exec i { s with pending := rest, loadWindow := false, key := k, rnd := r, pc := s.pc + 2, lastInstr := w }) ∧
    (s.pending = [] →
      step s = exec i { s with draws := s.draws + 1, loadWindow := false, key := Config.freeKey s.draws,
                               rnd := Config.freeRnd s.draws, pc := s.pc + 2, lastInstr := w })

/-- 40_engine.md R91 (the spec's decision D3, log 10): a `Tick` whose fetch would reach past 4095 takes
`FetchOutOfBounds`; neither `pc` nor `last_instr` (the spec's decision D18, log 16) nor anything else changes. -/
def Obligations.FetchPastTheImageFaults : Prop :=
  ∀ (s : State) (k r : Byte), s.fsm = .running → s.pc.toNat ≥ 4095 →
    ∃ t, s.tick k r = .next t ∧ FaultTaken .fetchOutOfBounds s t

/-- 30_encoding.md R76 (the spec's decision D5, log 10): a `Tick` that fetches a word that selects no row of the opcode
map takes `IllegalInstruction` after `pc` has advanced and the word has been recorded (the spec's decision D18, log 16),
with no other effect. -/
def Obligations.WordOfNoRowFaults : Prop :=
  ∀ (s : State) (k r : Byte) (w : Word), s.fsm = .running → s.pc.toNat ≤ 4094 →
    w.toNat = (s.readMem s.pc.toNat).toNat * 256 + (s.readMem (s.pc.toNat + 1)).toNat → wellFormedWord w = false →
    ∃ t, s.tick k r = .next t ∧ t.fsm = .faulted ∧ t.faultCause = .illegalInstruction ∧ t.pc = s.pc + 2 ∧
      t.lastInstr = w ∧ Frame [] [.pc, .lastInstr, .fsm, .faultCause, .key, .rnd] s t

/-- 40_engine.md R96 (key bytes above `0x0F` as the spec's decision D14, log 15): in `AwaitingKey` a `Tick` with key 0
changes nothing, one with another key writes the whole byte into the pending register and resumes, with no fetch. -/
def Obligations.AwaitingKeyEndsOnNonzeroKeyOnly : Prop :=
  ∀ (s : State) (k r : Byte), s.fsm = .awaitingKey →
    (k = 0x00 → s.tick k r = .next s) ∧
    (k ≠ 0x00 → ∃ t, s.tick k r = .next t ∧ t.reg s.waitReg = k ∧ t.fsm = .running ∧
      Frame [s.waitReg] [.fsm] s t)

/-- 40_engine.md R97, 60_exceptions.md R183 (the spec's decisions D3, D19, log 10): in `Faulted` a `Tick` and a
`TimerTick` change nothing; and a step that is no `Reset` leaves the engine's whole state, in a state whose load window is
closed: that premise is the model's field (log 6), it holds in every reachable faulted state
(`EveryStepKeepsTheControlState`), and without it a load would still be performed. -/
def Obligations.FaultedIsLeftByResetAlone : Prop :=
  ∀ s : State, s.fsm = .faulted →
    (∀ k r, s.tick k r = .next s) ∧ s.timerTick = s ∧
    (s.loadWindow = false → (∀ rest, s.pending ≠ .reset :: rest) → ∀ t, step s = .next t →
      Frame [] [.pending, .draws] s t)

/-- 40_engine.md R99, 20_memory.md R64: `n` timer ticks take `n` off the delay timer, down to 0 and no further, in
`Running` and in `AwaitingKey` alike, and touch nothing else. -/
def Obligations.TimerTicksCountDownToZero : Prop :=
  ∀ (n : Nat) (s : State), s.fsm ≠ .faulted →
    (State.timerTick^[n] s).dt.toNat = s.dt.toNat - n ∧ Frame [] [.dt] s (State.timerTick^[n] s)

/-- 10_state.md R35 (the spec's decision D2, log 1): when both strobes are raised in one cycle, the `Tick` is performed
first and the `TimerTick` second. -/
def Obligations.TickBeforeTimerTickOfOneCycle : Prop :=
  ∀ (s t : State) (k r : Byte), s.pending = [] →
    State.perform { s with pending := [.timerTick] } (.tick k r) = .next t →
    step (s.raiseStrobes (some (k, r)) true) = .next t ∧ step t = .next (State.timerTick { t with pending := [] })

/-- 10_state.md R28, R35, R36, 60_exceptions.md R181, R192: the renderer reads pixel `(x, y)` at index `y*64 + x` (the flat
index is the spec's decision D17, log 19); the inspection read returns the fields named, with the FSM as 0, 1, 2 and the
cause as 0 to 6. The codes and the fields beyond the instruction word and the registers are the spec's decisions D3, D1
(logs 10, 24). -/
def Obligations.ObservationShowsTheState : Prop :=
  ∀ s : State,
    (∀ (x : Fin 64) (y : Fin 32) (index : Fin 2048), index.val = y.val * 64 + x.val →
      s.render index = s.pixel x y) ∧
    (s.inspect.lastInstr = s.lastInstr ∧ (∀ r : Reg, s.inspect.V.get r = s.reg r) ∧ s.inspect.pc = s.pc ∧
      s.inspect.I = s.I ∧ s.inspect.dt = s.dt ∧ s.inspect.waitReg = s.waitReg ∧
      s.inspect.stackDepth = s.stack.length) ∧
    ((s.fsm = .running ∧ s.inspect.fsm.toNat = 0) ∨ (s.fsm = .awaitingKey ∧ s.inspect.fsm.toNat = 1) ∨
      (s.fsm = .faulted ∧ s.inspect.fsm.toNat = 2)) ∧
    ((s.faultCause = .none ∧ s.inspect.faultCause.toNat = 0) ∨
      (s.faultCause = .fetchOutOfBounds ∧ s.inspect.faultCause.toNat = 1) ∨
      (s.faultCause = .illegalInstruction ∧ s.inspect.faultCause.toNat = 2) ∨
      (s.faultCause = .stackUnderflow ∧ s.inspect.faultCause.toNat = 3) ∨
      (s.faultCause = .stackOverflow ∧ s.inspect.faultCause.toNat = 4) ∨
      (s.faultCause = .memReadOutOfBounds ∧ s.inspect.faultCause.toNat = 5) ∨
      (s.faultCause = .memWriteOutOfBounds ∧ s.inspect.faultCause.toNat = 6))

/-! ### Register loads, arithmetic, logic, shifts -/

/-- R129, R131: the two register loads, of every word their rows name. -/
def Obligations.LoadImmediateAndCopyRegister : Prop :=
  Denotes 0xF000 0x6000 (fun f => .ldImm f.x f.nn) ∧ Denotes 0xF00F 0x8000 (fun f => .ldReg f.x f.y) ∧
  ∀ (x y : Reg) (nn : Byte) (s : State),
    (∃ t, exec (.ldImm x nn) s = .next t ∧ t.reg x = nn ∧ Frame [x] [] s t) ∧
    (∃ t, exec (.ldReg x y) s = .next t ∧ t.reg x = s.reg y ∧ Frame [x] [] s t)

/-- R130: the addition of an immediate wraps modulo 256 and sets no flag. -/
def Obligations.AddImmediateWrapsWithoutFlag : Prop :=
  Denotes 0xF000 0x7000 (fun f => .addImm f.x f.nn) ∧
  ∀ (x : Reg) (nn : Byte) (s : State), ∃ t, exec (.addImm x nn) s = .next t ∧
    (t.reg x).toNat = ((s.reg x).toNat + nn.toNat) % 256 ∧ Frame [x] [] s t

/-- R132, R133, R134: the three logic instructions, bit by bit; no flag. -/
def Obligations.LogicIsBitwiseWithoutFlag : Prop :=
  Denotes 0xF00F 0x8001 (fun f => .or f.x f.y) ∧ Denotes 0xF00F 0x8002 (fun f => .and f.x f.y) ∧
  Denotes 0xF00F 0x8003 (fun f => .xor f.x f.y) ∧
  ∀ (x y : Reg) (s : State),
    (∃ t, exec (.or x y) s = .next t ∧ Frame [x] [] s t ∧
      ∀ b, (t.reg x).getLsbD b = ((s.reg x).getLsbD b || (s.reg y).getLsbD b)) ∧
    (∃ t, exec (.and x y) s = .next t ∧ Frame [x] [] s t ∧
      ∀ b, (t.reg x).getLsbD b = ((s.reg x).getLsbD b && (s.reg y).getLsbD b)) ∧
    (∃ t, exec (.xor x y) s = .next t ∧ Frame [x] [] s t ∧
      ∀ b, (t.reg x).getLsbD b = ((s.reg x).getLsbD b ^^ (s.reg y).getLsbD b))

/-- 42_alu.md R135: the addition and its carry. The clauses with `VF` as an operand are the spec's decision D8
(log 11). -/
def Obligations.AddSetsCarry : Prop :=
  ∀ (x y : Reg) (s : State), ∃ t, exec (.addReg x y) s = .next t ∧ Frame [x, VF] [] s t ∧
    let a := (s.reg x).toNat
    let b := (s.reg y).toNat
    let c := if a + b > 255 then 1 else 0
    (x ≠ VF → y ≠ VF → (t.reg VF).toNat = c ∧ (t.reg x).toNat = (a + b) % 256) ∧
    (x ≠ VF → y = VF → (t.reg VF).toNat = c ∧ (t.reg x).toNat = (a + c) % 256) ∧
    (x = VF → y ≠ VF → (t.reg VF).toNat = (c + b) % 256) ∧
    (x = VF → y = VF → (t.reg VF).toNat = 2 * c)

/-- 42_alu.md R136: the subtraction and its borrow, 1 when a borrow occurs. The clauses with `VF` as an operand are the
spec's decision D8 (log 11). -/
def Obligations.SubSetsBorrow : Prop :=
  ∀ (x y : Reg) (s : State), ∃ t, exec (.sub x y) s = .next t ∧ Frame [x, VF] [] s t ∧
    let a := (s.reg x).toNat
    let b := (s.reg y).toNat
    let f := if b > a then 1 else 0
    (x ≠ VF → y ≠ VF → (t.reg VF).toNat = f ∧ (t.reg x).toNat = (a + 256 - b) % 256) ∧
    (x ≠ VF → y = VF → (t.reg VF).toNat = f ∧ (t.reg x).toNat = (a + 256 - f) % 256) ∧
    (x = VF → y ≠ VF → (t.reg VF).toNat = (f + 256 - b) % 256) ∧
    (x = VF → y = VF → (t.reg VF).toNat = 0)

/-- 42_alu.md R138: the reversed subtraction and its borrow. The clauses with `VF` as an operand are the spec's decision
D8 (log 11). -/
def Obligations.SubnSetsBorrow : Prop :=
  ∀ (x y : Reg) (s : State), ∃ t, exec (.subn x y) s = .next t ∧ Frame [x, VF] [] s t ∧
    let a := (s.reg x).toNat
    let b := (s.reg y).toNat
    let f := if a > b then 1 else 0
    (x ≠ VF → y ≠ VF → (t.reg VF).toNat = f ∧ (t.reg x).toNat = (b + 256 - a) % 256) ∧
    (x ≠ VF → y = VF → (t.reg VF).toNat = f ∧ (t.reg x).toNat = (f + 256 - a) % 256) ∧
    (x = VF → y ≠ VF → (t.reg VF).toNat = (b + 256 - f) % 256) ∧
    (x = VF → y = VF → (t.reg VF).toNat = 0)

/-- 42_alu.md R137, R139: the shifts and their flags; `8XYE` puts `V[X] >> 3` into `VF`. The clauses with `X = 0xF` are
the spec's decision D8 (log 11). -/
def Obligations.ShiftsSetTheirFlags : Prop :=
  ∀ (x : Reg) (s : State),
    (∃ t, exec (.shr x) s = .next t ∧ Frame [x, VF] [] s t ∧
      (x ≠ VF → (t.reg VF).toNat = (s.reg x).toNat % 2 ∧ (t.reg x).toNat = (s.reg x).toNat / 2) ∧
      (x = VF → (t.reg VF).toNat = 0)) ∧
    (∃ t, exec (.shl x) s = .next t ∧ Frame [x, VF] [] s t ∧
      (x ≠ VF → (t.reg VF).toNat = (s.reg x).toNat / 8 ∧ (t.reg x).toNat = 2 * (s.reg x).toNat % 256) ∧
      (x = VF → (t.reg VF).toNat = 2 * ((s.reg x).toNat / 8)))

/-- R140: `I` receives the zero-extended address, whatever it held. -/
def Obligations.LoadAddressRegister : Prop :=
  Denotes 0xF000 0xA000 (fun f => .ldI f.nnn) ∧
  ∀ (nnn : Addr) (s : State), ∃ t, exec (.ldI nnn) s = .next t ∧ t.I.toNat = nnn.toNat ∧ Frame [] [.I] s t

/-- 42_alu.md R141 (`rnd` is a free input, the spec's decision D15, log 2): the random byte of this `Tick` under the
mask, for every random byte. -/
def Obligations.RandomByteUnderMask : Prop :=
  ∀ (x : Reg) (nn : Byte) (s : State), ∃ t, exec (.rnd x nn) s = .next t ∧ Frame [x] [] s t ∧
    ∀ b, (t.reg x).getLsbD b = (s.rnd.getLsbD b && nn.getLsbD b)

/-! ### Control transfer -/

/-- 41_flow.md R111, R117: the two jumps; the sum of `BNNN` does not wrap. That a target that cannot be fetched from takes
`FetchOutOfBounds` at the next fetch and not here is the spec's decision D3 (log 10). -/
def Obligations.JumpsSetThePc : Prop :=
  Denotes 0xF000 0x1000 (fun f => .jp f.nnn) ∧ Denotes 0xF000 0xB000 (fun f => .jpV0 f.nnn) ∧
  ∀ (nnn : Addr) (s : State),
    (∃ t, exec (.jp nnn) s = .next t ∧ t.pc.toNat = nnn.toNat ∧ Frame [] [.pc] s t ∧
      (t.pc.toNat > 4094 → t.fetch = .error .fetchOutOfBounds)) ∧
    (∃ t, exec (.jpV0 nnn) s = .next t ∧ t.pc.toNat = (s.reg 0).toNat + nnn.toNat ∧ Frame [] [.pc] s t ∧
      (t.pc.toNat > 4094 → t.fetch = .error .fetchOutOfBounds))

/-- 41_flow.md R112, 10_state.md R26: with room on the stack a call pushes the advanced `pc` and jumps; on a full stack,
whatever `STACK_DEPTH` is, it takes `StackOverflow` and pushes nothing (the bound and the fault are the spec's decision D4,
log 8). -/
def Obligations.CallPushesOrOverflows : Prop :=
  ∀ (nnn : Addr) (s : State),
    (s.stack.length < s.params.stackDepth → ∃ t, exec (.call nnn) s = .next t ∧ t.pc.toNat = nnn.toNat ∧
      t.stack = s.pc :: s.stack ∧ Frame [] [.pc, .stack] s t) ∧
    (s.params.stackDepth ≤ s.stack.length → ∃ t, exec (.call nnn) s = .next t ∧ FaultTaken .stackOverflow s t)

/-- 41_flow.md R110, 10_state.md R26: a return pops the newest entry into `pc`; on an empty stack it takes
`StackUnderflow` (the policy is the spec's decision D3, log 10). -/
def Obligations.ReturnPopsOrUnderflows : Prop :=
  ∀ s : State,
    (∀ v rest, s.stack = v :: rest → ∃ t, exec .ret s = .next t ∧ t.pc = v ∧ t.stack = rest ∧
      Frame [] [.pc, .stack] s t) ∧
    (s.stack = [] → ∃ t, exec .ret s = .next t ∧ FaultTaken .stackUnderflow s t)

/-- R113, R114, R115, R116, R160, R161: the six skips, on whole 8-bit values. -/
def Obligations.SkipsAddTwoWhenTheConditionHolds : Prop :=
  Denotes 0xF000 0x3000 (fun f => .seImm f.x f.nn) ∧ Denotes 0xF000 0x4000 (fun f => .sneImm f.x f.nn) ∧
  Denotes 0xF000 0x5000 (fun f => .seReg f.x f.y) ∧ Denotes 0xF000 0x9000 (fun f => .sneReg f.x f.y) ∧
  Denotes 0xF0FF 0xE09E (fun f => .skp f.x) ∧ Denotes 0xF0FF 0xE0A1 (fun f => .sknp f.x) ∧
  ∀ (x y : Reg) (nn : Byte) (s : State),
    (∃ t, exec (.seImm x nn) s = .next t ∧ t.pc = (if s.reg x = nn then s.pc + 2 else s.pc) ∧ Frame [] [.pc] s t) ∧
    (∃ t, exec (.sneImm x nn) s = .next t ∧ t.pc = (if s.reg x = nn then s.pc else s.pc + 2) ∧ Frame [] [.pc] s t) ∧
    (∃ t, exec (.seReg x y) s = .next t ∧ t.pc = (if s.reg x = s.reg y then s.pc + 2 else s.pc) ∧
      Frame [] [.pc] s t) ∧
    (∃ t, exec (.sneReg x y) s = .next t ∧ t.pc = (if s.reg x = s.reg y then s.pc else s.pc + 2) ∧
      Frame [] [.pc] s t) ∧
    (∃ t, exec (.skp x) s = .next t ∧ t.pc = (if s.reg x = s.key then s.pc + 2 else s.pc) ∧ Frame [] [.pc] s t) ∧
    (∃ t, exec (.sknp x) s = .next t ∧ t.pc = (if s.reg x = s.key then s.pc else s.pc + 2) ∧ Frame [] [.pc] s t)

/-- 95_test_vectors.md W6, R92, R110, R112: a call whose target is a return comes back to the address after the call,
with the stack as before and nothing else changed. -/
def Obligations.CallThenReturnComesBack : Prop :=
  ∀ (s : State) (nnn : Addr) (w : Word) (k r k' r' : Byte), s.fsm = .running → s.pc.toNat ≤ 4094 →
    s.readMem s.pc.toNat = highByte (encode (.call nnn)) → s.readMem (s.pc.toNat + 1) = lowByte (encode (.call nnn)) →
    nnn.toNat ≤ 4094 → w.toNat = (s.readMem nnn.toNat).toNat * 256 + (s.readMem (nnn.toNat + 1)).toNat →
    decodeWord w = .ok .ret → s.stack.length < s.params.stackDepth →
    ∃ t u, s.tick k r = .next t ∧ t.pc.toNat = nnn.toNat ∧ t.stack = (s.pc + 2) :: s.stack ∧
      t.tick k' r' = .next u ∧ u.pc = s.pc + 2 ∧ Frame [] [.pc, .lastInstr, .key, .rnd] s u

/-- 95_test_vectors.md W1, R113, R129: a register load followed by the skip on the same literal always skips. -/
def Obligations.SetThenSkipAlwaysSkips : Prop :=
  ∀ (s : State) (x : Reg) (nn : Byte) (k r k' r' : Byte), s.fsm = .running → s.pc.toNat + 3 ≤ 4095 →
    s.readMem s.pc.toNat = highByte (encode (.ldImm x nn)) →
    s.readMem (s.pc.toNat + 1) = lowByte (encode (.ldImm x nn)) →
    s.readMem (s.pc.toNat + 2) = highByte (encode (.seImm x nn)) →
    s.readMem (s.pc.toNat + 3) = lowByte (encode (.seImm x nn)) →
    ∃ t u, s.tick k r = .next t ∧ t.tick k' r' = .next u ∧ u.pc.toNat = s.pc.toNat + 6 ∧ u.reg x = nn ∧
      Frame [x] [.pc, .lastInstr, .key, .rnd] s u

/-- 40_engine.md R101, 70_reset_and_hazards.md R212(a): from its second execution on, a jump to itself leaves the whole
state unchanged (the sampled inputs are no state of the engine). -/
def Obligations.SelfJumpIsQuiescent : Prop :=
  ∀ (s : State) (nnn : Addr) (k r : Byte), s.fsm = .running → s.pc.toNat = nnn.toNat → nnn.toNat ≤ 4094 →
    s.readMem nnn.toNat = highByte (encode (.jp nnn)) → s.readMem (nnn.toNat + 1) = lowByte (encode (.jp nnn)) →
    s.lastInstr = encode (.jp nnn) → ∃ t, s.tick k r = .next t ∧ Frame [] [.key, .rnd] s t

/-- 30_encoding.md R77: from any even distance below the end of a zero-filled image the engine executes `CLS` once per
`Tick`, `pc` rising by 2 each time, until the fetch faults at 4096; nothing but the display, `pc`, `last_instr` and at the
end the fault changes. Choices in it: a step with nothing pending is a `Tick` with free inputs (logs 1, 2), it closes the
load window (log 6), and the final fault is the spec's decision D3 (log 10). -/
def Obligations.ZeroFilledMemoryRunsClsToTheEnd : Prop :=
  ∀ (m : Nat) (s : State), s.fsm = .running → s.pending = [] → s.pc.toNat + 2 * m = 4096 →
    (∀ a, s.pc.toNat ≤ a → a ≤ 4095 → s.readMem a = 0x00) →
    ∃ t u, core.run m s = .next t ∧ t.pc = 0x1000 ∧
      (0 < m → (∀ x y, t.pixel x y = false) ∧ t.lastInstr = 0x0000 ∧ t.loadWindow = false) ∧
      Frame [] [.px, .pc, .lastInstr, .key, .rnd, .draws, .loadWindow] s t ∧
      step t = .next u ∧ u.fsm = .faulted ∧ u.faultCause = .fetchOutOfBounds ∧
      Frame [] [.fsm, .faultCause, .draws, .loadWindow] t u

/-! ### Display -/

/-- R150: every pixel off, nothing else touched, `VF` too. -/
def Obligations.ClearTurnsEveryPixelOff : Prop :=
  Denotes 0xF00F 0x0000 (fun _ => .cls) ∧
  ∀ s : State, ∃ t, exec .cls s = .next t ∧ (∀ x y, t.pixel x y = false) ∧ Frame [] [.px] s t

/-- 43_display.md R151, R152: a draw inside the image is the pixel-wise XOR of the display with the sprite, wrapped
around both edges, and `VF` says whether some lit pixel met a set sprite bit; nothing else changes. The origin that
`VF` gives is the spec's decision D9 (log 11). -/
def Obligations.DrawIsThePixelwiseXorOfTheSprite : Prop :=
  ∀ (x y : Reg) (n : Nibble) (s : State), n.toNat = 0 ∨ s.indexed (n.toNat - 1) ≤ 4095 →
    ∃ t, exec (.drw x y n) s = .next t ∧ Frame [VF] [.px] s t ∧
      (∀ cx cy, t.pixel cx cy = (s.pixel cx cy ^^ s.spriteAt (s.origin x) (s.origin y) n.toNat cx cy)) ∧
      ((∃ cx cy, s.pixel cx cy = true ∧ s.spriteAt (s.origin x) (s.origin y) n.toNat cx cy = true) →
        t.reg VF = 0x01) ∧
      ((∀ cx cy, s.pixel cx cy = true → s.spriteAt (s.origin x) (s.origin y) n.toNat cx cy = false) →
        t.reg VF = 0x00)

/-- 43_display.md R153: drawing the same sprite at the same place twice restores the display, and `VF` after the second
draw is 1 exactly when some set sprite bit covers a pixel that is on after the first. With `X` or `Y` = `VF` it rests on the
origin 0, the spec's decision D9 (log 11). -/
def Obligations.DrawTwiceRestoresTheDisplay : Prop :=
  ∀ (x y : Reg) (n : Nibble) (s : State), n.toNat = 0 ∨ s.indexed (n.toNat - 1) ≤ 4095 →
    ∃ t u, exec (.drw x y n) s = .next t ∧ exec (.drw x y n) t = .next u ∧
      (∀ cx cy, u.pixel cx cy = s.pixel cx cy) ∧ Frame [VF] [] s u ∧
      (u.reg VF = 0x01 ↔
        ∃ cx cy, s.spriteAt (s.origin x) (s.origin y) n.toNat cx cy = true ∧ t.pixel cx cy = true)

/-! ### Timer, key wait, address register, image -/

/-- R162, R164, R165: the timer moves, and the sound-timer instruction that does nothing. -/
def Obligations.TimerMovesAndSoundNoOperation : Prop :=
  Denotes 0xF0FF 0xF007 (fun f => .ldFromDt f.x) ∧ Denotes 0xF0FF 0xF015 (fun f => .ldToDt f.x) ∧
  Denotes 0xF0FF 0xF018 (fun f => .ldSt f.x) ∧
  ∀ (x : Reg) (s : State),
    (∃ t, exec (.ldFromDt x) s = .next t ∧ t.reg x = s.dt ∧ Frame [x] [] s t) ∧
    (∃ t, exec (.ldToDt x) s = .next t ∧ t.dt = s.reg x ∧ Frame [] [.dt] s t) ∧
    (∃ t, exec (.ldSt x) s = .next t ∧ Frame [] [] s t)

/-- 44_key_timer_mem.md R163, 40_engine.md R96, R99: the key wait. The instruction writes no register and looks at no
key; while it waits, key 0 changes nothing and the timer runs; the first other key goes into the register (key bytes
above `0x0F` as the spec's decision D14, log 15). -/
def Obligations.KeyWaitRemembersTheRegister : Prop :=
  ∀ (x : Reg) (s : State), ∃ t, exec (.ldKey x) s = .next t ∧ t.fsm = .awaitingKey ∧ t.waitReg = x ∧
    Frame [] [.fsm, .waitReg] s t ∧ (∀ r, t.tick 0x00 r = .next t) ∧
    (t.timerTick.dt.toNat = s.dt.toNat - 1 ∧ Frame [] [.dt] t t.timerTick) ∧
    ∀ k r, k ≠ 0x00 → ∃ u, t.tick k r = .next u ∧ u.reg x = k ∧ u.fsm = .running ∧ Frame [x] [.fsm] t u

/-- 44_key_timer_mem.md R166 (the 16-bit wrap is the spec's decision D7, log 12): `I` grows by the register modulo
65536, no flag, no fault. -/
def Obligations.AddToAddressRegister : Prop :=
  ∀ (x : Reg) (s : State), ∃ t, exec (.addI x) s = .next t ∧
    t.I.toNat = (s.I.toNat + (s.reg x).toNat) % 65536 ∧ Frame [] [.I] s t

/-- 44_key_timer_mem.md R167: `I` receives the byte of the image at five times the field, or at five times the register's
contents, by the machine's parameter `FX29_OPERAND`; under either reading the address lies inside the image. The default
of the parameter is the spec's decision D10 (log 9); that it stands in State is log 23. -/
def Obligations.FontPointerReadsThroughTheImage : Prop :=
  ∀ (x : Reg) (s : State), ∃ t, exec (.ldFont x) s = .next t ∧ Frame [] [.I] s t ∧
    (s.params.fx29Operand = .field → t.I.toNat = (s.readMem (5 * x.val)).toNat) ∧
    (s.params.fx29Operand = .register → t.I.toNat = (s.readMem (5 * (s.reg x).toNat)).toNat) ∧
    ∀ operand, s.fontAddress operand x ≤ 1275

/-- 44_key_timer_mem.md R168: the three digit writes leave the ones digit at `I` and every other byte as it was. -/
def Obligations.BcdLeavesTheOnesDigitAtI : Prop :=
  ∀ (x : Reg) (s : State), s.MemCanonical → s.indexed 0 ≤ 4095 →
    ∃ t, exec (.ldBcd x) s = .next t ∧ (t.readMem (s.indexed 0)).toNat = (s.reg x).toNat % 10 ∧
      (∀ a, a ≠ s.indexed 0 → t.readMem a = s.readMem a) ∧ Frame [] [.mem] s t

/-- 44_key_timer_mem.md R169 (the range is the spec's decision D21, log 13): the dump stores `V[0]` to `V[X-1]` at
ascending addresses from `I` on, and no other byte; with `X = 0` nothing, whatever `I` is. -/
def Obligations.DumpStoresTheRegistersBelowX : Prop :=
  ∀ (x : Reg) (s : State), s.MemCanonical → x.val = 0 ∨ s.indexed (x.val - 1) ≤ 4095 →
    ∃ t, exec (.dump x) s = .next t ∧ Frame [] [.mem] s t ∧
      (∀ k : Reg, k.val < x.val → t.readMem (s.indexed k.val) = s.reg k) ∧
      (∀ a, a < s.indexed 0 ∨ s.indexed x.val ≤ a → t.readMem a = s.readMem a)

/-- 44_key_timer_mem.md R170 (the range is the spec's decision D21, log 13): the load fills `V[0]` to `V[X-1]` from
ascending addresses from `I` on; `V[X]` and the others stay; with `X = 0` nothing, whatever `I` is. -/
def Obligations.LoadFillsTheRegistersBelowX : Prop :=
  ∀ (x : Reg) (s : State), x.val = 0 ∨ s.indexed (x.val - 1) ≤ 4095 →
    ∃ t, exec (.load x) s = .next t ∧ (∀ k : Reg, k.val < x.val → t.reg k = s.readMem (s.indexed k.val)) ∧
      Frame ((List.finRange 16).filter (fun k => decide (k.val < x.val))) [] s t

/-- 20_memory.md R58, 60_exceptions.md R181, R182 (the spec's decision D3, log 10): an access whose last address lies
above 4095 takes the fault of its kind, and none of the instruction's effects happens, not even those in range. That the
last address of a dump and of a load is `I + X - 1` is the spec's decision D21 (log 13). -/
def Obligations.AccessPastTheImageFaults : Prop :=
  ∀ (x y : Reg) (n : Nibble) (s : State),
    (s.indexed 0 > 4095 → ∃ t, exec (.ldBcd x) s = .next t ∧ FaultTaken .memWriteOutOfBounds s t) ∧
    (0 < x.val → s.indexed (x.val - 1) > 4095 →
      ∃ t, exec (.dump x) s = .next t ∧ FaultTaken .memWriteOutOfBounds s t) ∧
    (0 < x.val → s.indexed (x.val - 1) > 4095 →
      ∃ t, exec (.load x) s = .next t ∧ FaultTaken .memReadOutOfBounds s t) ∧
    (0 < n.toNat → s.indexed (n.toNat - 1) > 4095 →
      ∃ t, exec (.drw x y n) s = .next t ∧ FaultTaken .memReadOutOfBounds s t)

/-- 44_key_timer_mem.md R169, R170 (the range is the spec's decision D21, log 13): registers dumped by one instruction
are loaded back by the other, whatever the registers hold in between. -/
def Obligations.DumpThenLoadRestoresTheRegisters : Prop :=
  ∀ (x : Reg) (s u : State), s.MemCanonical → x.val = 0 ∨ s.indexed (x.val - 1) ≤ 4095 →
    ∃ t, exec (.dump x) s = .next t ∧ (u.mem = t.mem → u.params = t.params → u.I = t.I →
      ∃ v, exec (.load x) u = .next v ∧ ∀ k : Reg, k.val < x.val → v.reg k = s.reg k)

/-- 20_memory.md R55, R63: two bytes stored by a dump (its range is the spec's decision D21, log 13) are the word of the
very next fetch from there, the byte at the lower address its high byte. -/
def Obligations.StoredBytesAreFetched : Prop :=
  ∀ (x : Reg) (s u : State), s.MemCanonical → 2 ≤ x.val → s.indexed (x.val - 1) ≤ 4095 →
    ∃ t, exec (.dump x) s = .next t ∧ (u.mem = t.mem → u.params = t.params → u.pc = s.I →
      ∃ w, u.fetch = .ok w ∧ w.toNat = (s.reg 0).toNat * 256 + (s.reg 1).toNat)

/-- 20_memory.md R50 (the canonical form is the model's, log 18): two canonical images that read alike are equal. -/
def Obligations.CanonicalImagesThatReadAlikeAreEqual : Prop :=
  ∀ (font : Font) (m m' : Memory), m.wf font = true → m'.wf font = true → (∀ a, m.read font a = m'.read font a) → m = m'

/-! ### Whole-machine rules -/

/-- 00_scope.md R1, 60_exceptions.md R185: no instruction stops the model: each answers a next state from every state (the
engine's own faults are next states, log 10). -/
def Obligations.EveryInstructionAnswersANextState : Prop :=
  ∀ (i : Instr) (s : State), ∃ t, exec i s = .next t

/-- 10_state.md R33, 20_memory.md R54: the only event a step can stop at is a load after the first `Tick`, to which the
spec gives no meaning (its decision D16; the form of the stop is the model's, log 6); a load that does not fit is a next
state (log 7). -/
def Obligations.StepStopsOnlyAtALateLoad : Prop :=
  ∀ s : State,
    ((∃ t, step s = .next t) ∧ ¬ ((∃ bytes rest, s.pending = .loadProgram bytes :: rest) ∧ s.loadWindow = false)) ∨
    ((∃ bytes rest, s.pending = .loadProgram bytes :: rest) ∧ s.loadWindow = false ∧
      step s = .refused .loadAfterFirstTick)

/-- 60_exceptions.md R181, R182, R184, R185 (the spec's decisions D3, D4, D21, logs 10, 8, 13): from a live state an
instruction ends in `Faulted` exactly when its row of the fault table says so, and then with that row's cause and no other
effect. -/
def Obligations.InstructionsFaultExactlyByTheTable : Prop :=
  ∀ (i : Instr) (s t : State), s.Live → exec i s = .next t →
    (t.fsm = .faulted → t = { s with fsm := .faulted, faultCause := t.faultCause }) ∧
    (t.fsm = .faulted ∧ t.faultCause = .stackUnderflow ↔ i = .ret ∧ s.stack = []) ∧
    (t.fsm = .faulted ∧ t.faultCause = .stackOverflow ↔
      (∃ nnn, i = .call nnn) ∧ s.params.stackDepth ≤ s.stack.length) ∧
    (t.fsm = .faulted ∧ t.faultCause = .memReadOutOfBounds ↔
      (∃ x y n, i = .drw x y n ∧ n.toNat > 0 ∧ s.I.toNat + n.toNat - 1 > 4095) ∨
      (∃ x, i = .load x ∧ x.val > 0 ∧ s.I.toNat + x.val - 1 > 4095)) ∧
    (t.fsm = .faulted ∧ t.faultCause = .memWriteOutOfBounds ↔
      (∃ x, i = .ldBcd x ∧ s.I.toNat > 4095) ∨
      (∃ x, i = .dump x ∧ x.val > 0 ∧ s.I.toNat + x.val - 1 > 4095)) ∧
    ¬ (t.fsm = .faulted ∧ (t.faultCause = .none ∨ t.faultCause = .fetchOutOfBounds ∨
      t.faultCause = .illegalInstruction))

/-- 10_state.md R20, R23 to R30, R32, R36: each part of the state is written by the instructions the spec names and by no
other; the range of the register load is the spec's decision D21 (log 13), `fsm` and `fault_cause` change in a fault by D3
(log 10). The inputs, the events, the load fields and the parameters are the model's own (logs 1, 2, 5, 6, 7, 23): no
instruction writes one. -/
def Obligations.EachPartIsWrittenByItsInstructionsAlone : Prop :=
  ∀ (i : Instr) (s t : State), exec i s = .next t →
    (∀ r, t.reg r ≠ s.reg r → (∃ nn, i = .ldImm r nn ∨ i = .addImm r nn ∨ i = .rnd r nn) ∨
      (∃ y, i = .ldReg r y ∨ i = .or r y ∨ i = .and r y ∨ i = .xor r y) ∨
      (∃ y, i = .addReg r y ∨ i = .sub r y ∨ i = .subn r y) ∨ i = .shr r ∨ i = .shl r ∨ i = .ldFromDt r ∨
      (∃ x, i = .load x ∧ r.val < x.val) ∨
      (r = VF ∧ ((∃ x y, i = .addReg x y ∨ i = .sub x y ∨ i = .subn x y) ∨ (∃ x, i = .shr x ∨ i = .shl x) ∨
        ∃ x y n, i = .drw x y n))) ∧
    (t.px ≠ s.px → i = .cls ∨ ∃ x y n, i = .drw x y n) ∧
    (t.stack ≠ s.stack → i = .ret ∨ ∃ nnn, i = .call nnn) ∧
    (t.mem ≠ s.mem → ∃ x, i = .ldBcd x ∨ i = .dump x) ∧
    (t.I ≠ s.I → (∃ nnn, i = .ldI nnn) ∨ ∃ x, i = .addI x ∨ i = .ldFont x) ∧
    (t.dt ≠ s.dt → ∃ x, i = .ldToDt x) ∧
    (t.waitReg ≠ s.waitReg → ∃ x, i = .ldKey x) ∧
    (t.pc ≠ s.pc → i = .ret ∨ (∃ nnn, i = .jp nnn ∨ i = .call nnn ∨ i = .jpV0 nnn) ∨
      (∃ x nn, i = .seImm x nn ∨ i = .sneImm x nn) ∨ (∃ x y, i = .seReg x y ∨ i = .sneReg x y) ∨
      ∃ x, i = .skp x ∨ i = .sknp x) ∧
    (t.fsm ≠ s.fsm ∨ t.faultCause ≠ s.faultCause →
      ((∃ x, i = .ldKey x) ∧ t.fsm = .awaitingKey ∧ t.faultCause = s.faultCause) ∨
      (t.fsm = .faulted ∧ t.faultCause ≠ .none ∧ (i = .ret ∨ (∃ nnn, i = .call nnn) ∨
        (∃ x y n, i = .drw x y n) ∨ ∃ x, i = .ldBcd x ∨ i = .dump x ∨ i = .load x))) ∧
    t.lastInstr = s.lastInstr ∧ t.pending = s.pending ∧ t.key = s.key ∧ t.rnd = s.rnd ∧ t.draws = s.draws ∧
    t.loadWindow = s.loadWindow ∧ t.loadError = s.loadError ∧ t.params = s.params

/-- 10_state.md R21: `VF` changes only in the six flag-writing instructions, or as the plain destination of another one.
That the register load never reaches `VF`, even with `X` = `0xF`, is the spec's decision D21 (log 13). -/
def Obligations.VfIsWrittenByTheFlagInstructions : Prop :=
  ∀ (i : Instr) (s t : State), exec i s = .next t → t.reg VF ≠ s.reg VF →
    (∃ x y, i = .addReg x y ∨ i = .sub x y ∨ i = .subn x y) ∨ (∃ x, i = .shr x ∨ i = .shl x) ∨
    (∃ x y n, i = .drw x y n) ∨
    (∃ nn, i = .ldImm VF nn ∨ i = .addImm VF nn ∨ i = .rnd VF nn) ∨
    (∃ y, i = .ldReg VF y ∨ i = .or VF y ∨ i = .and VF y ∨ i = .xor VF y) ∨ i = .ldFromDt VF

/-- 40_engine.md R94: "`key` is read only by `EX9E` and `EXA1`; `rnd` only by `CXNN`": another instruction does the
same whatever the inputs are. -/
def Obligations.InputsAreReadByTheirInstructionsAlone : Prop :=
  ∀ (i : Instr) (s t : State), exec i s = .next t →
    (∀ k, (∀ x, i ≠ .skp x ∧ i ≠ .sknp x) → exec i { s with key := k } = .next { t with key := k }) ∧
    (∀ r, (∀ x nn, i ≠ .rnd x nn) → exec i { s with rnd := r } = .next { t with rnd := r })

/-! ### Invariants -/

/-- 20_memory.md R50, R58 (the canonical form is the model's, log 18): every step keeps the image canonical, so that no
byte is ever listed outside the 4096. -/
def Obligations.EveryStepKeepsTheImageCanonical : Prop :=
  ∀ s t : State, s.MemCanonical → step s = .next t → t.MemCanonical

/-- 10_state.md R26, 60_exceptions.md R181: every step keeps the stack within the machine's depth (the bound is the spec's
decision D4, log 8), the fault cause 0 exactly outside `Faulted` (its decision D3, log 10), and the load window, which is
the model's field (log 6), closed outside `Running`; and no step changes the parameters (log 23). -/
def Obligations.EveryStepKeepsTheControlState : Prop :=
  ∀ s t : State, s.ControlOk → step s = .next t → t.ControlOk ∧ t.params = s.params

/-- 41_flow.md R110, R117, 40_engine.md R91: every step keeps `pc` at most `0x10FE` and every return address at most
4096, so that no 16-bit wrap of `pc` is ever seen (10_state.md R24). -/
def Obligations.EveryStepKeepsPcAndReturnAddressesBounded : Prop :=
  ∀ s t : State, s.AddressesOk → step s = .next t → t.AddressesOk

/-- 60_exceptions.md R181, R182, R183: every step keeps the diagnostic true: in `Faulted`, `fault_cause`, `last_instr`,
`pc`, `I` and the stack show the condition that was met. It rests on the spec's decisions D3, D5 (log 10), D4 for the full
stack (log 8), D21 for the range of a dump and a load (log 13), and D18, by which `last_instr` holds the faulting word
(log 16, unsafe for claims on the diagnostic). -/
def Obligations.EveryStepKeepsTheDiagnosisTrue : Prop :=
  ∀ s t : State, s.DiagnosisOk → step s = .next t → t.DiagnosisOk

/-- 10_state.md R37: the state after reset, of a machine with any parameters, meets the four invariants. That the stack
is empty and `last_instr` zero there is the spec's decision D6 (log 3), the open load window log 6, the parameters log
23. -/
def Obligations.ResetMeetsTheInvariants : Prop :=
  ∀ p : Params, (State.launch p).MemCanonical ∧ (State.launch p).ControlOk ∧ (State.launch p).AddressesOk ∧
    (State.launch p).DiagnosisOk
end

