-- ==== Sys2Proof/Laws/Memory.lean ====
section
/-! SUPPORT. The laws of the image: read after write, and the canonical form that every write keeps. -/

namespace Sys2Proof.Machine

variable {font : Font}

@[simp] theorem Memory.read_nil (a : Nat) : Memory.read font [] a = Memory.background font a := rfl

theorem Memory.read_cons (c : Host.Cell) (m : Memory) (a : Nat) :
    Memory.read font (c :: m) a = if c.1 = a then c.2 else Memory.read font m a := rfl

/-- The first address of a rising list is a lower bound of the rest. -/
theorem Memory.risesFrom_mono {lo lo' : Nat} {m : Memory} (h : Memory.risesFrom lo m = true) (hl : lo' ≤ lo) :
    Memory.risesFrom lo' m = true := by
  cases m with
  | nil => rfl
  | cons c m =>
    simp only [Memory.risesFrom, Bool.and_eq_true, decide_eq_true_eq] at h ⊢
    exact ⟨hl.trans h.1, h.2⟩

/-- Below the first address of a rising list nothing is listed. -/
theorem Memory.read_below {lo a : Nat} {m : Memory} (h : Memory.risesFrom lo m = true) (ha : a < lo) :
    Memory.read font m a = Memory.background font a := by
  induction m generalizing lo with
  | nil => rfl
  | cons c m ih =>
    simp only [Memory.risesFrom, Bool.and_eq_true, decide_eq_true_eq] at h
    rw [Memory.read_cons, if_neg (by omega), ih h.2 (by omega)]

/-- Read after write, for a list whose addresses rise. -/
theorem Memory.read_write_of_rises {lo : Nat} {m : Memory} (h : Memory.risesFrom lo m = true) (a : Nat) (b : Byte)
    (x : Nat) : Memory.read font (Memory.write font m a b) x = if x = a then b else Memory.read font m x := by
  induction m generalizing lo with
  | nil =>
    unfold Memory.write
    split
    · next hb => split <;> simp_all [Memory.read_nil]
    · next hb => rw [Memory.read_cons]; simp only [eq_comm]
  | cons c m ih =>
    simp only [Memory.risesFrom, Bool.and_eq_true, decide_eq_true_eq] at h
    have below : ∀ y, y ≤ c.1 → Memory.read font m y = Memory.background font y :=
      fun y hy => Memory.read_below h.2 (by omega)
    unfold Memory.write
    split
    · next hlt =>
      split
      · next hb =>
        split
        · next hx => subst hx; rw [Memory.read_cons, if_neg (by omega), below x (by omega), hb]
        · rfl
      · rw [Memory.read_cons]; simp only [eq_comm]
    · split
      · next hge heq =>
        subst heq
        split
        · next hb =>
          split
          · next hx => subst hx; rw [below c.1 le_rfl, hb]
          · next hx => rw [Memory.read_cons, if_neg (Ne.symm hx)]
        · rw [Memory.read_cons, Memory.read_cons]
          by_cases hx : x = c.1
          · simp [hx]
          · simp [hx, Ne.symm hx]
      · next hge hne =>
        rw [Memory.read_cons, ih h.2, Memory.read_cons]
        by_cases hx : x = a
        · subst hx; simp [Ne.symm hne]
        · simp [hx]

/-- A write keeps the addresses rising. -/
theorem Memory.risesFrom_write {lo : Nat} {m : Memory} (h : Memory.risesFrom lo m = true) {a : Nat} (ha : lo ≤ a)
    (b : Byte) : Memory.risesFrom lo (Memory.write font m a b) = true := by
  induction m generalizing lo with
  | nil => unfold Memory.write; split <;> simp [Memory.risesFrom, ha]
  | cons c m ih =>
    have h' := h
    simp only [Memory.risesFrom, Bool.and_eq_true, decide_eq_true_eq] at h
    unfold Memory.write
    split
    · next hlt =>
      split
      · exact h'
      · simp only [Memory.risesFrom, Bool.and_eq_true, decide_eq_true_eq]
        exact ⟨ha, by omega, h.2⟩
    · split
      · next heq =>
        split
        · exact Memory.risesFrom_mono h.2 (by omega)
        · subst heq; simp only [Memory.risesFrom, Bool.and_eq_true, decide_eq_true_eq]; exact ⟨ha, h.2⟩
      · simp only [Memory.risesFrom, Bool.and_eq_true, decide_eq_true_eq]
        exact ⟨h.1, ih h.2 (by omega)⟩

/-- A write lists nothing but old entries and the byte written, and that byte only if it differs from the reset
contents. -/
theorem Memory.mem_write {m : Memory} {a : Nat} {b : Byte} {c : Host.Cell} (h : c ∈ Memory.write font m a b) :
    c ∈ m ∨ (c = (a, b) ∧ b ≠ Memory.background font a) := by
  induction m with
  | nil => unfold Memory.write at h; split at h <;> simp_all
  | cons d m ih =>
    unfold Memory.write at h
    split at h
    · split at h <;> simp_all
      tauto
    · split at h
      · split at h <;> simp_all
        tauto
      · rcases List.mem_cons.mp h with h | h
        · simp [h]
        · rcases ih h with h | h
          · simp [h]
          · exact .inr h

/-- The canonical form, as a proposition. -/
theorem Memory.wf_iff (m : Memory) : Memory.wf font m = true ↔
    Memory.risesFrom 0 m = true ∧ ∀ c ∈ m, c.1 < Config.imageBytes ∧ c.2 ≠ Memory.background font c.1 := by
  simp [Memory.wf]

theorem Memory.wf_nil : Memory.wf font [] = true := rfl

/-- Every write inside the image keeps the canonical form. -/
theorem Memory.wf_write {m : Memory} (h : Memory.wf font m = true) {a : Nat} (ha : a < Config.imageBytes) (b : Byte) :
    Memory.wf font (Memory.write font m a b) = true := by
  rw [Memory.wf_iff] at h ⊢
  refine ⟨Memory.risesFrom_write h.1 (Nat.zero_le a) b, fun c hc => ?_⟩
  rcases Memory.mem_write hc with hc | ⟨rfl, hb⟩
  · exact h.2 c hc
  · exact ⟨ha, hb⟩

/-- Every sequence of writes inside the image keeps the canonical form. -/
theorem Memory.wf_writeBytes {m : Memory} (h : Memory.wf font m = true) {a : Nat} {bs : List Byte}
    (ha : a + bs.length ≤ Config.imageBytes) : Memory.wf font (Memory.writeBytes font m a bs) = true := by
  induction bs generalizing m a with
  | nil => exact h
  | cons b bs ih =>
    simp only [List.length_cons] at ha
    exact ih (Memory.wf_write h (by omega) b) (by omega)

/-- Read after write in a canonical image. -/
theorem Memory.read_write {m : Memory} (h : Memory.wf font m = true) (a : Nat) (b : Byte) (x : Nat) :
    Memory.read font (Memory.write font m a b) x = if x = a then b else Memory.read font m x :=
  Memory.read_write_of_rises ((Memory.wf_iff m).mp h).1 a b x

end Sys2Proof.Machine
end

