-- ==== Sys2Proof/Laws/State.lean ====
section
/-! SUPPORT. What each named update of the state leaves in each field: one lemma per field per update. -/

namespace Sys2Proof.Machine

variable (s : State)

@[simp] theorem State.setReg_V (x : Reg) (b : Byte) : (s.setReg x b).V = s.V.set x.val b x.isLt := rfl
@[simp] theorem State.setReg_I (x : Reg) (b : Byte) : (s.setReg x b).I = s.I := rfl
@[simp] theorem State.setReg_pc (x : Reg) (b : Byte) : (s.setReg x b).pc = s.pc := rfl
@[simp] theorem State.setReg_stack (x : Reg) (b : Byte) : (s.setReg x b).stack = s.stack := rfl
@[simp] theorem State.setReg_mem (x : Reg) (b : Byte) : (s.setReg x b).mem = s.mem := rfl
@[simp] theorem State.setReg_px (x : Reg) (b : Byte) : (s.setReg x b).px = s.px := rfl
@[simp] theorem State.setReg_dt (x : Reg) (b : Byte) : (s.setReg x b).dt = s.dt := rfl
@[simp] theorem State.setReg_fsm (x : Reg) (b : Byte) : (s.setReg x b).fsm = s.fsm := rfl
@[simp] theorem State.setReg_waitReg (x : Reg) (b : Byte) : (s.setReg x b).waitReg = s.waitReg := rfl
@[simp] theorem State.setReg_lastInstr (x : Reg) (b : Byte) : (s.setReg x b).lastInstr = s.lastInstr := rfl
@[simp] theorem State.setReg_faultCause (x : Reg) (b : Byte) : (s.setReg x b).faultCause = s.faultCause := rfl
@[simp] theorem State.setReg_pending (x : Reg) (b : Byte) : (s.setReg x b).pending = s.pending := rfl
@[simp] theorem State.setReg_key (x : Reg) (b : Byte) : (s.setReg x b).key = s.key := rfl
@[simp] theorem State.setReg_rnd (x : Reg) (b : Byte) : (s.setReg x b).rnd = s.rnd := rfl
@[simp] theorem State.setReg_draws (x : Reg) (b : Byte) : (s.setReg x b).draws = s.draws := rfl
@[simp] theorem State.setReg_loadWindow (x : Reg) (b : Byte) : (s.setReg x b).loadWindow = s.loadWindow := rfl
@[simp] theorem State.setReg_loadError (x : Reg) (b : Byte) : (s.setReg x b).loadError = s.loadError := rfl
@[simp] theorem State.setReg_params (x : Reg) (b : Byte) : (s.setReg x b).params = s.params := rfl

@[simp] theorem State.setI_V (a : Word) : (s.setI a).V = s.V := rfl
@[simp] theorem State.setI_I (a : Word) : (s.setI a).I = a := rfl
@[simp] theorem State.setI_pc (a : Word) : (s.setI a).pc = s.pc := rfl
@[simp] theorem State.setI_stack (a : Word) : (s.setI a).stack = s.stack := rfl
@[simp] theorem State.setI_mem (a : Word) : (s.setI a).mem = s.mem := rfl
@[simp] theorem State.setI_px (a : Word) : (s.setI a).px = s.px := rfl
@[simp] theorem State.setI_dt (a : Word) : (s.setI a).dt = s.dt := rfl
@[simp] theorem State.setI_fsm (a : Word) : (s.setI a).fsm = s.fsm := rfl
@[simp] theorem State.setI_waitReg (a : Word) : (s.setI a).waitReg = s.waitReg := rfl
@[simp] theorem State.setI_lastInstr (a : Word) : (s.setI a).lastInstr = s.lastInstr := rfl
@[simp] theorem State.setI_faultCause (a : Word) : (s.setI a).faultCause = s.faultCause := rfl
@[simp] theorem State.setI_pending (a : Word) : (s.setI a).pending = s.pending := rfl
@[simp] theorem State.setI_key (a : Word) : (s.setI a).key = s.key := rfl
@[simp] theorem State.setI_rnd (a : Word) : (s.setI a).rnd = s.rnd := rfl
@[simp] theorem State.setI_draws (a : Word) : (s.setI a).draws = s.draws := rfl
@[simp] theorem State.setI_loadWindow (a : Word) : (s.setI a).loadWindow = s.loadWindow := rfl
@[simp] theorem State.setI_loadError (a : Word) : (s.setI a).loadError = s.loadError := rfl
@[simp] theorem State.setI_params (a : Word) : (s.setI a).params = s.params := rfl

@[simp] theorem State.setPc_V (a : Word) : (s.setPc a).V = s.V := rfl
@[simp] theorem State.setPc_I (a : Word) : (s.setPc a).I = s.I := rfl
@[simp] theorem State.setPc_pc (a : Word) : (s.setPc a).pc = a := rfl
@[simp] theorem State.setPc_stack (a : Word) : (s.setPc a).stack = s.stack := rfl
@[simp] theorem State.setPc_mem (a : Word) : (s.setPc a).mem = s.mem := rfl
@[simp] theorem State.setPc_px (a : Word) : (s.setPc a).px = s.px := rfl
@[simp] theorem State.setPc_dt (a : Word) : (s.setPc a).dt = s.dt := rfl
@[simp] theorem State.setPc_fsm (a : Word) : (s.setPc a).fsm = s.fsm := rfl
@[simp] theorem State.setPc_waitReg (a : Word) : (s.setPc a).waitReg = s.waitReg := rfl
@[simp] theorem State.setPc_lastInstr (a : Word) : (s.setPc a).lastInstr = s.lastInstr := rfl
@[simp] theorem State.setPc_faultCause (a : Word) : (s.setPc a).faultCause = s.faultCause := rfl
@[simp] theorem State.setPc_pending (a : Word) : (s.setPc a).pending = s.pending := rfl
@[simp] theorem State.setPc_key (a : Word) : (s.setPc a).key = s.key := rfl
@[simp] theorem State.setPc_rnd (a : Word) : (s.setPc a).rnd = s.rnd := rfl
@[simp] theorem State.setPc_draws (a : Word) : (s.setPc a).draws = s.draws := rfl
@[simp] theorem State.setPc_loadWindow (a : Word) : (s.setPc a).loadWindow = s.loadWindow := rfl
@[simp] theorem State.setPc_loadError (a : Word) : (s.setPc a).loadError = s.loadError := rfl
@[simp] theorem State.setPc_params (a : Word) : (s.setPc a).params = s.params := rfl

@[simp] theorem State.setDt_V (b : Byte) : (s.setDt b).V = s.V := rfl
@[simp] theorem State.setDt_I (b : Byte) : (s.setDt b).I = s.I := rfl
@[simp] theorem State.setDt_pc (b : Byte) : (s.setDt b).pc = s.pc := rfl
@[simp] theorem State.setDt_stack (b : Byte) : (s.setDt b).stack = s.stack := rfl
@[simp] theorem State.setDt_mem (b : Byte) : (s.setDt b).mem = s.mem := rfl
@[simp] theorem State.setDt_px (b : Byte) : (s.setDt b).px = s.px := rfl
@[simp] theorem State.setDt_dt (b : Byte) : (s.setDt b).dt = b := rfl
@[simp] theorem State.setDt_fsm (b : Byte) : (s.setDt b).fsm = s.fsm := rfl
@[simp] theorem State.setDt_waitReg (b : Byte) : (s.setDt b).waitReg = s.waitReg := rfl
@[simp] theorem State.setDt_lastInstr (b : Byte) : (s.setDt b).lastInstr = s.lastInstr := rfl
@[simp] theorem State.setDt_faultCause (b : Byte) : (s.setDt b).faultCause = s.faultCause := rfl
@[simp] theorem State.setDt_pending (b : Byte) : (s.setDt b).pending = s.pending := rfl
@[simp] theorem State.setDt_key (b : Byte) : (s.setDt b).key = s.key := rfl
@[simp] theorem State.setDt_rnd (b : Byte) : (s.setDt b).rnd = s.rnd := rfl
@[simp] theorem State.setDt_draws (b : Byte) : (s.setDt b).draws = s.draws := rfl
@[simp] theorem State.setDt_loadWindow (b : Byte) : (s.setDt b).loadWindow = s.loadWindow := rfl
@[simp] theorem State.setDt_loadError (b : Byte) : (s.setDt b).loadError = s.loadError := rfl
@[simp] theorem State.setDt_params (b : Byte) : (s.setDt b).params = s.params := rfl

@[simp] theorem State.skipIf_V (c : Bool) : (s.skipIf c).V = s.V := rfl
@[simp] theorem State.skipIf_I (c : Bool) : (s.skipIf c).I = s.I := rfl
@[simp] theorem State.skipIf_pc (c : Bool) : (s.skipIf c).pc = (if c then s.pc + 2 else s.pc) := rfl
@[simp] theorem State.skipIf_stack (c : Bool) : (s.skipIf c).stack = s.stack := rfl
@[simp] theorem State.skipIf_mem (c : Bool) : (s.skipIf c).mem = s.mem := rfl
@[simp] theorem State.skipIf_px (c : Bool) : (s.skipIf c).px = s.px := rfl
@[simp] theorem State.skipIf_dt (c : Bool) : (s.skipIf c).dt = s.dt := rfl
@[simp] theorem State.skipIf_fsm (c : Bool) : (s.skipIf c).fsm = s.fsm := rfl
@[simp] theorem State.skipIf_waitReg (c : Bool) : (s.skipIf c).waitReg = s.waitReg := rfl
@[simp] theorem State.skipIf_lastInstr (c : Bool) : (s.skipIf c).lastInstr = s.lastInstr := rfl
@[simp] theorem State.skipIf_faultCause (c : Bool) : (s.skipIf c).faultCause = s.faultCause := rfl
@[simp] theorem State.skipIf_pending (c : Bool) : (s.skipIf c).pending = s.pending := rfl
@[simp] theorem State.skipIf_key (c : Bool) : (s.skipIf c).key = s.key := rfl
@[simp] theorem State.skipIf_rnd (c : Bool) : (s.skipIf c).rnd = s.rnd := rfl
@[simp] theorem State.skipIf_draws (c : Bool) : (s.skipIf c).draws = s.draws := rfl
@[simp] theorem State.skipIf_loadWindow (c : Bool) : (s.skipIf c).loadWindow = s.loadWindow := rfl
@[simp] theorem State.skipIf_loadError (c : Bool) : (s.skipIf c).loadError = s.loadError := rfl
@[simp] theorem State.skipIf_params (c : Bool) : (s.skipIf c).params = s.params := rfl

@[simp] theorem State.setStack_V (l : List Word) : (s.setStack l).V = s.V := rfl
@[simp] theorem State.setStack_I (l : List Word) : (s.setStack l).I = s.I := rfl
@[simp] theorem State.setStack_pc (l : List Word) : (s.setStack l).pc = s.pc := rfl
@[simp] theorem State.setStack_stack (l : List Word) : (s.setStack l).stack = l := rfl
@[simp] theorem State.setStack_mem (l : List Word) : (s.setStack l).mem = s.mem := rfl
@[simp] theorem State.setStack_px (l : List Word) : (s.setStack l).px = s.px := rfl
@[simp] theorem State.setStack_dt (l : List Word) : (s.setStack l).dt = s.dt := rfl
@[simp] theorem State.setStack_fsm (l : List Word) : (s.setStack l).fsm = s.fsm := rfl
@[simp] theorem State.setStack_waitReg (l : List Word) : (s.setStack l).waitReg = s.waitReg := rfl
@[simp] theorem State.setStack_lastInstr (l : List Word) : (s.setStack l).lastInstr = s.lastInstr := rfl
@[simp] theorem State.setStack_faultCause (l : List Word) : (s.setStack l).faultCause = s.faultCause := rfl
@[simp] theorem State.setStack_pending (l : List Word) : (s.setStack l).pending = s.pending := rfl
@[simp] theorem State.setStack_key (l : List Word) : (s.setStack l).key = s.key := rfl
@[simp] theorem State.setStack_rnd (l : List Word) : (s.setStack l).rnd = s.rnd := rfl
@[simp] theorem State.setStack_draws (l : List Word) : (s.setStack l).draws = s.draws := rfl
@[simp] theorem State.setStack_loadWindow (l : List Word) : (s.setStack l).loadWindow = s.loadWindow := rfl
@[simp] theorem State.setStack_loadError (l : List Word) : (s.setStack l).loadError = s.loadError := rfl
@[simp] theorem State.setStack_params (l : List Word) : (s.setStack l).params = s.params := rfl

@[simp] theorem State.writeMem_V (a : Nat) (b : Byte) : (s.writeMem a b).V = s.V := rfl
@[simp] theorem State.writeMem_I (a : Nat) (b : Byte) : (s.writeMem a b).I = s.I := rfl
@[simp] theorem State.writeMem_pc (a : Nat) (b : Byte) : (s.writeMem a b).pc = s.pc := rfl
@[simp] theorem State.writeMem_stack (a : Nat) (b : Byte) : (s.writeMem a b).stack = s.stack := rfl
@[simp] theorem State.writeMem_mem (a : Nat) (b : Byte) : (s.writeMem a b).mem = s.mem.write s.params.font a b := rfl
@[simp] theorem State.writeMem_px (a : Nat) (b : Byte) : (s.writeMem a b).px = s.px := rfl
@[simp] theorem State.writeMem_dt (a : Nat) (b : Byte) : (s.writeMem a b).dt = s.dt := rfl
@[simp] theorem State.writeMem_fsm (a : Nat) (b : Byte) : (s.writeMem a b).fsm = s.fsm := rfl
@[simp] theorem State.writeMem_waitReg (a : Nat) (b : Byte) : (s.writeMem a b).waitReg = s.waitReg := rfl
@[simp] theorem State.writeMem_lastInstr (a : Nat) (b : Byte) : (s.writeMem a b).lastInstr = s.lastInstr := rfl
@[simp] theorem State.writeMem_faultCause (a : Nat) (b : Byte) : (s.writeMem a b).faultCause = s.faultCause := rfl
@[simp] theorem State.writeMem_pending (a : Nat) (b : Byte) : (s.writeMem a b).pending = s.pending := rfl
@[simp] theorem State.writeMem_key (a : Nat) (b : Byte) : (s.writeMem a b).key = s.key := rfl
@[simp] theorem State.writeMem_rnd (a : Nat) (b : Byte) : (s.writeMem a b).rnd = s.rnd := rfl
@[simp] theorem State.writeMem_draws (a : Nat) (b : Byte) : (s.writeMem a b).draws = s.draws := rfl
@[simp] theorem State.writeMem_loadWindow (a : Nat) (b : Byte) : (s.writeMem a b).loadWindow = s.loadWindow := rfl
@[simp] theorem State.writeMem_loadError (a : Nat) (b : Byte) : (s.writeMem a b).loadError = s.loadError := rfl
@[simp] theorem State.writeMem_params (a : Nat) (b : Byte) : (s.writeMem a b).params = s.params := rfl

@[simp] theorem State.setPixel_V (x : Fin 64) (y : Fin 32) (b : Bool) : (s.setPixel x y b).V = s.V := rfl
@[simp] theorem State.setPixel_I (x : Fin 64) (y : Fin 32) (b : Bool) : (s.setPixel x y b).I = s.I := rfl
@[simp] theorem State.setPixel_pc (x : Fin 64) (y : Fin 32) (b : Bool) : (s.setPixel x y b).pc = s.pc := rfl
@[simp] theorem State.setPixel_stack (x : Fin 64) (y : Fin 32) (b : Bool) : (s.setPixel x y b).stack = s.stack := rfl
@[simp] theorem State.setPixel_mem (x : Fin 64) (y : Fin 32) (b : Bool) : (s.setPixel x y b).mem = s.mem := rfl
@[simp] theorem State.setPixel_px (x : Fin 64) (y : Fin 32) (b : Bool) : (s.setPixel x y b).px = s.px.set x y b := rfl
@[simp] theorem State.setPixel_dt (x : Fin 64) (y : Fin 32) (b : Bool) : (s.setPixel x y b).dt = s.dt := rfl
@[simp] theorem State.setPixel_fsm (x : Fin 64) (y : Fin 32) (b : Bool) : (s.setPixel x y b).fsm = s.fsm := rfl
@[simp] theorem State.setPixel_waitReg (x : Fin 64) (y : Fin 32) (b : Bool) : (s.setPixel x y b).waitReg = s.waitReg := rfl
@[simp] theorem State.setPixel_lastInstr (x : Fin 64) (y : Fin 32) (b : Bool) : (s.setPixel x y b).lastInstr = s.lastInstr := rfl
@[simp] theorem State.setPixel_faultCause (x : Fin 64) (y : Fin 32) (b : Bool) : (s.setPixel x y b).faultCause = s.faultCause := rfl
@[simp] theorem State.setPixel_pending (x : Fin 64) (y : Fin 32) (b : Bool) : (s.setPixel x y b).pending = s.pending := rfl
@[simp] theorem State.setPixel_key (x : Fin 64) (y : Fin 32) (b : Bool) : (s.setPixel x y b).key = s.key := rfl
@[simp] theorem State.setPixel_rnd (x : Fin 64) (y : Fin 32) (b : Bool) : (s.setPixel x y b).rnd = s.rnd := rfl
@[simp] theorem State.setPixel_draws (x : Fin 64) (y : Fin 32) (b : Bool) : (s.setPixel x y b).draws = s.draws := rfl
@[simp] theorem State.setPixel_loadWindow (x : Fin 64) (y : Fin 32) (b : Bool) : (s.setPixel x y b).loadWindow = s.loadWindow := rfl
@[simp] theorem State.setPixel_loadError (x : Fin 64) (y : Fin 32) (b : Bool) : (s.setPixel x y b).loadError = s.loadError := rfl
@[simp] theorem State.setPixel_params (x : Fin 64) (y : Fin 32) (b : Bool) : (s.setPixel x y b).params = s.params := rfl

@[simp] theorem State.clearDisplay_V : (s.clearDisplay).V = s.V := rfl
@[simp] theorem State.clearDisplay_I : (s.clearDisplay).I = s.I := rfl
@[simp] theorem State.clearDisplay_pc : (s.clearDisplay).pc = s.pc := rfl
@[simp] theorem State.clearDisplay_stack : (s.clearDisplay).stack = s.stack := rfl
@[simp] theorem State.clearDisplay_mem : (s.clearDisplay).mem = s.mem := rfl
@[simp] theorem State.clearDisplay_px : (s.clearDisplay).px = Display.blank := rfl
@[simp] theorem State.clearDisplay_dt : (s.clearDisplay).dt = s.dt := rfl
@[simp] theorem State.clearDisplay_fsm : (s.clearDisplay).fsm = s.fsm := rfl
@[simp] theorem State.clearDisplay_waitReg : (s.clearDisplay).waitReg = s.waitReg := rfl
@[simp] theorem State.clearDisplay_lastInstr : (s.clearDisplay).lastInstr = s.lastInstr := rfl
@[simp] theorem State.clearDisplay_faultCause : (s.clearDisplay).faultCause = s.faultCause := rfl
@[simp] theorem State.clearDisplay_pending : (s.clearDisplay).pending = s.pending := rfl
@[simp] theorem State.clearDisplay_key : (s.clearDisplay).key = s.key := rfl
@[simp] theorem State.clearDisplay_rnd : (s.clearDisplay).rnd = s.rnd := rfl
@[simp] theorem State.clearDisplay_draws : (s.clearDisplay).draws = s.draws := rfl
@[simp] theorem State.clearDisplay_loadWindow : (s.clearDisplay).loadWindow = s.loadWindow := rfl
@[simp] theorem State.clearDisplay_loadError : (s.clearDisplay).loadError = s.loadError := rfl
@[simp] theorem State.clearDisplay_params : (s.clearDisplay).params = s.params := rfl

@[simp] theorem State.enterWait_V (x : Reg) : (s.enterWait x).V = s.V := rfl
@[simp] theorem State.enterWait_I (x : Reg) : (s.enterWait x).I = s.I := rfl
@[simp] theorem State.enterWait_pc (x : Reg) : (s.enterWait x).pc = s.pc := rfl
@[simp] theorem State.enterWait_stack (x : Reg) : (s.enterWait x).stack = s.stack := rfl
@[simp] theorem State.enterWait_mem (x : Reg) : (s.enterWait x).mem = s.mem := rfl
@[simp] theorem State.enterWait_px (x : Reg) : (s.enterWait x).px = s.px := rfl
@[simp] theorem State.enterWait_dt (x : Reg) : (s.enterWait x).dt = s.dt := rfl
@[simp] theorem State.enterWait_fsm (x : Reg) : (s.enterWait x).fsm = .awaitingKey := rfl
@[simp] theorem State.enterWait_waitReg (x : Reg) : (s.enterWait x).waitReg = x := rfl
@[simp] theorem State.enterWait_lastInstr (x : Reg) : (s.enterWait x).lastInstr = s.lastInstr := rfl
@[simp] theorem State.enterWait_faultCause (x : Reg) : (s.enterWait x).faultCause = s.faultCause := rfl
@[simp] theorem State.enterWait_pending (x : Reg) : (s.enterWait x).pending = s.pending := rfl
@[simp] theorem State.enterWait_key (x : Reg) : (s.enterWait x).key = s.key := rfl
@[simp] theorem State.enterWait_rnd (x : Reg) : (s.enterWait x).rnd = s.rnd := rfl
@[simp] theorem State.enterWait_draws (x : Reg) : (s.enterWait x).draws = s.draws := rfl
@[simp] theorem State.enterWait_loadWindow (x : Reg) : (s.enterWait x).loadWindow = s.loadWindow := rfl
@[simp] theorem State.enterWait_loadError (x : Reg) : (s.enterWait x).loadError = s.loadError := rfl
@[simp] theorem State.enterWait_params (x : Reg) : (s.enterWait x).params = s.params := rfl

@[simp] theorem State.acceptKey_V (k : Byte) : (s.acceptKey k).V = s.V.set s.waitReg.val k s.waitReg.isLt := rfl
@[simp] theorem State.acceptKey_I (k : Byte) : (s.acceptKey k).I = s.I := rfl
@[simp] theorem State.acceptKey_pc (k : Byte) : (s.acceptKey k).pc = s.pc := rfl
@[simp] theorem State.acceptKey_stack (k : Byte) : (s.acceptKey k).stack = s.stack := rfl
@[simp] theorem State.acceptKey_mem (k : Byte) : (s.acceptKey k).mem = s.mem := rfl
@[simp] theorem State.acceptKey_px (k : Byte) : (s.acceptKey k).px = s.px := rfl
@[simp] theorem State.acceptKey_dt (k : Byte) : (s.acceptKey k).dt = s.dt := rfl
@[simp] theorem State.acceptKey_fsm (k : Byte) : (s.acceptKey k).fsm = .running := rfl
@[simp] theorem State.acceptKey_waitReg (k : Byte) : (s.acceptKey k).waitReg = s.waitReg := rfl
@[simp] theorem State.acceptKey_lastInstr (k : Byte) : (s.acceptKey k).lastInstr = s.lastInstr := rfl
@[simp] theorem State.acceptKey_faultCause (k : Byte) : (s.acceptKey k).faultCause = s.faultCause := rfl
@[simp] theorem State.acceptKey_pending (k : Byte) : (s.acceptKey k).pending = s.pending := rfl
@[simp] theorem State.acceptKey_key (k : Byte) : (s.acceptKey k).key = s.key := rfl
@[simp] theorem State.acceptKey_rnd (k : Byte) : (s.acceptKey k).rnd = s.rnd := rfl
@[simp] theorem State.acceptKey_draws (k : Byte) : (s.acceptKey k).draws = s.draws := rfl
@[simp] theorem State.acceptKey_loadWindow (k : Byte) : (s.acceptKey k).loadWindow = s.loadWindow := rfl
@[simp] theorem State.acceptKey_loadError (k : Byte) : (s.acceptKey k).loadError = s.loadError := rfl
@[simp] theorem State.acceptKey_params (k : Byte) : (s.acceptKey k).params = s.params := rfl

@[simp] theorem State.raiseFault_V (c : FaultCause) : (s.raiseFault c).V = s.V := rfl
@[simp] theorem State.raiseFault_I (c : FaultCause) : (s.raiseFault c).I = s.I := rfl
@[simp] theorem State.raiseFault_pc (c : FaultCause) : (s.raiseFault c).pc = s.pc := rfl
@[simp] theorem State.raiseFault_stack (c : FaultCause) : (s.raiseFault c).stack = s.stack := rfl
@[simp] theorem State.raiseFault_mem (c : FaultCause) : (s.raiseFault c).mem = s.mem := rfl
@[simp] theorem State.raiseFault_px (c : FaultCause) : (s.raiseFault c).px = s.px := rfl
@[simp] theorem State.raiseFault_dt (c : FaultCause) : (s.raiseFault c).dt = s.dt := rfl
@[simp] theorem State.raiseFault_fsm (c : FaultCause) : (s.raiseFault c).fsm = .faulted := rfl
@[simp] theorem State.raiseFault_waitReg (c : FaultCause) : (s.raiseFault c).waitReg = s.waitReg := rfl
@[simp] theorem State.raiseFault_lastInstr (c : FaultCause) : (s.raiseFault c).lastInstr = s.lastInstr := rfl
@[simp] theorem State.raiseFault_faultCause (c : FaultCause) : (s.raiseFault c).faultCause = c := rfl
@[simp] theorem State.raiseFault_pending (c : FaultCause) : (s.raiseFault c).pending = s.pending := rfl
@[simp] theorem State.raiseFault_key (c : FaultCause) : (s.raiseFault c).key = s.key := rfl
@[simp] theorem State.raiseFault_rnd (c : FaultCause) : (s.raiseFault c).rnd = s.rnd := rfl
@[simp] theorem State.raiseFault_draws (c : FaultCause) : (s.raiseFault c).draws = s.draws := rfl
@[simp] theorem State.raiseFault_loadWindow (c : FaultCause) : (s.raiseFault c).loadWindow = s.loadWindow := rfl
@[simp] theorem State.raiseFault_loadError (c : FaultCause) : (s.raiseFault c).loadError = s.loadError := rfl
@[simp] theorem State.raiseFault_params (c : FaultCause) : (s.raiseFault c).params = s.params := rfl

@[simp] theorem State.advance_V (w : Word) : (s.advance w).V = s.V := rfl
@[simp] theorem State.advance_I (w : Word) : (s.advance w).I = s.I := rfl
@[simp] theorem State.advance_pc (w : Word) : (s.advance w).pc = s.pc + 2 := rfl
@[simp] theorem State.advance_stack (w : Word) : (s.advance w).stack = s.stack := rfl
@[simp] theorem State.advance_mem (w : Word) : (s.advance w).mem = s.mem := rfl
@[simp] theorem State.advance_px (w : Word) : (s.advance w).px = s.px := rfl
@[simp] theorem State.advance_dt (w : Word) : (s.advance w).dt = s.dt := rfl
@[simp] theorem State.advance_fsm (w : Word) : (s.advance w).fsm = s.fsm := rfl
@[simp] theorem State.advance_waitReg (w : Word) : (s.advance w).waitReg = s.waitReg := rfl
@[simp] theorem State.advance_lastInstr (w : Word) : (s.advance w).lastInstr = w := rfl
@[simp] theorem State.advance_faultCause (w : Word) : (s.advance w).faultCause = s.faultCause := rfl
@[simp] theorem State.advance_pending (w : Word) : (s.advance w).pending = s.pending := rfl
@[simp] theorem State.advance_key (w : Word) : (s.advance w).key = s.key := rfl
@[simp] theorem State.advance_rnd (w : Word) : (s.advance w).rnd = s.rnd := rfl
@[simp] theorem State.advance_draws (w : Word) : (s.advance w).draws = s.draws := rfl
@[simp] theorem State.advance_loadWindow (w : Word) : (s.advance w).loadWindow = s.loadWindow := rfl
@[simp] theorem State.advance_loadError (w : Word) : (s.advance w).loadError = s.loadError := rfl
@[simp] theorem State.advance_params (w : Word) : (s.advance w).params = s.params := rfl

@[simp] theorem State.sample_V (k r : Byte) : (s.sample k r).V = s.V := rfl
@[simp] theorem State.sample_I (k r : Byte) : (s.sample k r).I = s.I := rfl
@[simp] theorem State.sample_pc (k r : Byte) : (s.sample k r).pc = s.pc := rfl
@[simp] theorem State.sample_stack (k r : Byte) : (s.sample k r).stack = s.stack := rfl
@[simp] theorem State.sample_mem (k r : Byte) : (s.sample k r).mem = s.mem := rfl
@[simp] theorem State.sample_px (k r : Byte) : (s.sample k r).px = s.px := rfl
@[simp] theorem State.sample_dt (k r : Byte) : (s.sample k r).dt = s.dt := rfl
@[simp] theorem State.sample_fsm (k r : Byte) : (s.sample k r).fsm = s.fsm := rfl
@[simp] theorem State.sample_waitReg (k r : Byte) : (s.sample k r).waitReg = s.waitReg := rfl
@[simp] theorem State.sample_lastInstr (k r : Byte) : (s.sample k r).lastInstr = s.lastInstr := rfl
@[simp] theorem State.sample_faultCause (k r : Byte) : (s.sample k r).faultCause = s.faultCause := rfl
@[simp] theorem State.sample_pending (k r : Byte) : (s.sample k r).pending = s.pending := rfl
@[simp] theorem State.sample_key (k r : Byte) : (s.sample k r).key = k := rfl
@[simp] theorem State.sample_rnd (k r : Byte) : (s.sample k r).rnd = r := rfl
@[simp] theorem State.sample_draws (k r : Byte) : (s.sample k r).draws = s.draws := rfl
@[simp] theorem State.sample_loadWindow (k r : Byte) : (s.sample k r).loadWindow = s.loadWindow := rfl
@[simp] theorem State.sample_loadError (k r : Byte) : (s.sample k r).loadError = s.loadError := rfl
@[simp] theorem State.sample_params (k r : Byte) : (s.sample k r).params = s.params := rfl

@[simp] theorem State.closeLoadWindow_V : (s.closeLoadWindow).V = s.V := rfl
@[simp] theorem State.closeLoadWindow_I : (s.closeLoadWindow).I = s.I := rfl
@[simp] theorem State.closeLoadWindow_pc : (s.closeLoadWindow).pc = s.pc := rfl
@[simp] theorem State.closeLoadWindow_stack : (s.closeLoadWindow).stack = s.stack := rfl
@[simp] theorem State.closeLoadWindow_mem : (s.closeLoadWindow).mem = s.mem := rfl
@[simp] theorem State.closeLoadWindow_px : (s.closeLoadWindow).px = s.px := rfl
@[simp] theorem State.closeLoadWindow_dt : (s.closeLoadWindow).dt = s.dt := rfl
@[simp] theorem State.closeLoadWindow_fsm : (s.closeLoadWindow).fsm = s.fsm := rfl
@[simp] theorem State.closeLoadWindow_waitReg : (s.closeLoadWindow).waitReg = s.waitReg := rfl
@[simp] theorem State.closeLoadWindow_lastInstr : (s.closeLoadWindow).lastInstr = s.lastInstr := rfl
@[simp] theorem State.closeLoadWindow_faultCause : (s.closeLoadWindow).faultCause = s.faultCause := rfl
@[simp] theorem State.closeLoadWindow_pending : (s.closeLoadWindow).pending = s.pending := rfl
@[simp] theorem State.closeLoadWindow_key : (s.closeLoadWindow).key = s.key := rfl
@[simp] theorem State.closeLoadWindow_rnd : (s.closeLoadWindow).rnd = s.rnd := rfl
@[simp] theorem State.closeLoadWindow_draws : (s.closeLoadWindow).draws = s.draws := rfl
@[simp] theorem State.closeLoadWindow_loadWindow : (s.closeLoadWindow).loadWindow = false := rfl
@[simp] theorem State.closeLoadWindow_loadError : (s.closeLoadWindow).loadError = s.loadError := rfl
@[simp] theorem State.closeLoadWindow_params : (s.closeLoadWindow).params = s.params := rfl

@[simp] theorem State.setPending_V (l : List Event) : (s.setPending l).V = s.V := rfl
@[simp] theorem State.setPending_I (l : List Event) : (s.setPending l).I = s.I := rfl
@[simp] theorem State.setPending_pc (l : List Event) : (s.setPending l).pc = s.pc := rfl
@[simp] theorem State.setPending_stack (l : List Event) : (s.setPending l).stack = s.stack := rfl
@[simp] theorem State.setPending_mem (l : List Event) : (s.setPending l).mem = s.mem := rfl
@[simp] theorem State.setPending_px (l : List Event) : (s.setPending l).px = s.px := rfl
@[simp] theorem State.setPending_dt (l : List Event) : (s.setPending l).dt = s.dt := rfl
@[simp] theorem State.setPending_fsm (l : List Event) : (s.setPending l).fsm = s.fsm := rfl
@[simp] theorem State.setPending_waitReg (l : List Event) : (s.setPending l).waitReg = s.waitReg := rfl
@[simp] theorem State.setPending_lastInstr (l : List Event) : (s.setPending l).lastInstr = s.lastInstr := rfl
@[simp] theorem State.setPending_faultCause (l : List Event) : (s.setPending l).faultCause = s.faultCause := rfl
@[simp] theorem State.setPending_pending (l : List Event) : (s.setPending l).pending = l := rfl
@[simp] theorem State.setPending_key (l : List Event) : (s.setPending l).key = s.key := rfl
@[simp] theorem State.setPending_rnd (l : List Event) : (s.setPending l).rnd = s.rnd := rfl
@[simp] theorem State.setPending_draws (l : List Event) : (s.setPending l).draws = s.draws := rfl
@[simp] theorem State.setPending_loadWindow (l : List Event) : (s.setPending l).loadWindow = s.loadWindow := rfl
@[simp] theorem State.setPending_loadError (l : List Event) : (s.setPending l).loadError = s.loadError := rfl
@[simp] theorem State.setPending_params (l : List Event) : (s.setPending l).params = s.params := rfl

@[simp] theorem State.countDraw_V : (s.countDraw).V = s.V := rfl
@[simp] theorem State.countDraw_I : (s.countDraw).I = s.I := rfl
@[simp] theorem State.countDraw_pc : (s.countDraw).pc = s.pc := rfl
@[simp] theorem State.countDraw_stack : (s.countDraw).stack = s.stack := rfl
@[simp] theorem State.countDraw_mem : (s.countDraw).mem = s.mem := rfl
@[simp] theorem State.countDraw_px : (s.countDraw).px = s.px := rfl
@[simp] theorem State.countDraw_dt : (s.countDraw).dt = s.dt := rfl
@[simp] theorem State.countDraw_fsm : (s.countDraw).fsm = s.fsm := rfl
@[simp] theorem State.countDraw_waitReg : (s.countDraw).waitReg = s.waitReg := rfl
@[simp] theorem State.countDraw_lastInstr : (s.countDraw).lastInstr = s.lastInstr := rfl
@[simp] theorem State.countDraw_faultCause : (s.countDraw).faultCause = s.faultCause := rfl
@[simp] theorem State.countDraw_pending : (s.countDraw).pending = s.pending := rfl
@[simp] theorem State.countDraw_key : (s.countDraw).key = s.key := rfl
@[simp] theorem State.countDraw_rnd : (s.countDraw).rnd = s.rnd := rfl
@[simp] theorem State.countDraw_draws : (s.countDraw).draws = s.draws + 1 := rfl
@[simp] theorem State.countDraw_loadWindow : (s.countDraw).loadWindow = s.loadWindow := rfl
@[simp] theorem State.countDraw_loadError : (s.countDraw).loadError = s.loadError := rfl
@[simp] theorem State.countDraw_params : (s.countDraw).params = s.params := rfl

@[simp] theorem State.loadBytes_V (bytes : List Byte) : (s.loadBytes bytes).V = s.V := rfl
@[simp] theorem State.loadBytes_I (bytes : List Byte) : (s.loadBytes bytes).I = s.I := rfl
@[simp] theorem State.loadBytes_pc (bytes : List Byte) : (s.loadBytes bytes).pc = s.pc := rfl
@[simp] theorem State.loadBytes_stack (bytes : List Byte) : (s.loadBytes bytes).stack = s.stack := rfl
@[simp] theorem State.loadBytes_mem (bytes : List Byte) :
    (s.loadBytes bytes).mem = s.mem.writeBytes s.params.font Config.programBase bytes := rfl
@[simp] theorem State.loadBytes_px (bytes : List Byte) : (s.loadBytes bytes).px = s.px := rfl
@[simp] theorem State.loadBytes_dt (bytes : List Byte) : (s.loadBytes bytes).dt = s.dt := rfl
@[simp] theorem State.loadBytes_fsm (bytes : List Byte) : (s.loadBytes bytes).fsm = s.fsm := rfl
@[simp] theorem State.loadBytes_waitReg (bytes : List Byte) : (s.loadBytes bytes).waitReg = s.waitReg := rfl
@[simp] theorem State.loadBytes_lastInstr (bytes : List Byte) : (s.loadBytes bytes).lastInstr = s.lastInstr := rfl
@[simp] theorem State.loadBytes_faultCause (bytes : List Byte) : (s.loadBytes bytes).faultCause = s.faultCause := rfl
@[simp] theorem State.loadBytes_pending (bytes : List Byte) : (s.loadBytes bytes).pending = s.pending := rfl
@[simp] theorem State.loadBytes_key (bytes : List Byte) : (s.loadBytes bytes).key = s.key := rfl
@[simp] theorem State.loadBytes_rnd (bytes : List Byte) : (s.loadBytes bytes).rnd = s.rnd := rfl
@[simp] theorem State.loadBytes_draws (bytes : List Byte) : (s.loadBytes bytes).draws = s.draws := rfl
@[simp] theorem State.loadBytes_loadWindow (bytes : List Byte) : (s.loadBytes bytes).loadWindow = s.loadWindow := rfl
@[simp] theorem State.loadBytes_loadError (bytes : List Byte) : (s.loadBytes bytes).loadError = s.loadError := rfl
@[simp] theorem State.loadBytes_params (bytes : List Byte) : (s.loadBytes bytes).params = s.params := rfl

@[simp] theorem State.setLoadError_V (b : Bool) : (s.setLoadError b).V = s.V := rfl
@[simp] theorem State.setLoadError_I (b : Bool) : (s.setLoadError b).I = s.I := rfl
@[simp] theorem State.setLoadError_pc (b : Bool) : (s.setLoadError b).pc = s.pc := rfl
@[simp] theorem State.setLoadError_stack (b : Bool) : (s.setLoadError b).stack = s.stack := rfl
@[simp] theorem State.setLoadError_mem (b : Bool) : (s.setLoadError b).mem = s.mem := rfl
@[simp] theorem State.setLoadError_px (b : Bool) : (s.setLoadError b).px = s.px := rfl
@[simp] theorem State.setLoadError_dt (b : Bool) : (s.setLoadError b).dt = s.dt := rfl
@[simp] theorem State.setLoadError_fsm (b : Bool) : (s.setLoadError b).fsm = s.fsm := rfl
@[simp] theorem State.setLoadError_waitReg (b : Bool) : (s.setLoadError b).waitReg = s.waitReg := rfl
@[simp] theorem State.setLoadError_lastInstr (b : Bool) : (s.setLoadError b).lastInstr = s.lastInstr := rfl
@[simp] theorem State.setLoadError_faultCause (b : Bool) : (s.setLoadError b).faultCause = s.faultCause := rfl
@[simp] theorem State.setLoadError_pending (b : Bool) : (s.setLoadError b).pending = s.pending := rfl
@[simp] theorem State.setLoadError_key (b : Bool) : (s.setLoadError b).key = s.key := rfl
@[simp] theorem State.setLoadError_rnd (b : Bool) : (s.setLoadError b).rnd = s.rnd := rfl
@[simp] theorem State.setLoadError_draws (b : Bool) : (s.setLoadError b).draws = s.draws := rfl
@[simp] theorem State.setLoadError_loadWindow (b : Bool) : (s.setLoadError b).loadWindow = s.loadWindow := rfl
@[simp] theorem State.setLoadError_loadError (b : Bool) : (s.setLoadError b).loadError = b := rfl
@[simp] theorem State.setLoadError_params (b : Bool) : (s.setLoadError b).params = s.params := rfl

@[simp] theorem State.writeMemBytes_V (a : Nat) (bs : List Byte) : (s.writeMemBytes a bs).V = s.V := rfl
@[simp] theorem State.writeMemBytes_I (a : Nat) (bs : List Byte) : (s.writeMemBytes a bs).I = s.I := rfl
@[simp] theorem State.writeMemBytes_pc (a : Nat) (bs : List Byte) : (s.writeMemBytes a bs).pc = s.pc := rfl
@[simp] theorem State.writeMemBytes_stack (a : Nat) (bs : List Byte) : (s.writeMemBytes a bs).stack = s.stack := rfl
@[simp] theorem State.writeMemBytes_mem (a : Nat) (bs : List Byte) :
    (s.writeMemBytes a bs).mem = s.mem.writeBytes s.params.font a bs := rfl
@[simp] theorem State.writeMemBytes_px (a : Nat) (bs : List Byte) : (s.writeMemBytes a bs).px = s.px := rfl
@[simp] theorem State.writeMemBytes_dt (a : Nat) (bs : List Byte) : (s.writeMemBytes a bs).dt = s.dt := rfl
@[simp] theorem State.writeMemBytes_fsm (a : Nat) (bs : List Byte) : (s.writeMemBytes a bs).fsm = s.fsm := rfl
@[simp] theorem State.writeMemBytes_waitReg (a : Nat) (bs : List Byte) : (s.writeMemBytes a bs).waitReg = s.waitReg := rfl
@[simp] theorem State.writeMemBytes_lastInstr (a : Nat) (bs : List Byte) : (s.writeMemBytes a bs).lastInstr = s.lastInstr := rfl
@[simp] theorem State.writeMemBytes_faultCause (a : Nat) (bs : List Byte) : (s.writeMemBytes a bs).faultCause = s.faultCause := rfl
@[simp] theorem State.writeMemBytes_pending (a : Nat) (bs : List Byte) : (s.writeMemBytes a bs).pending = s.pending := rfl
@[simp] theorem State.writeMemBytes_key (a : Nat) (bs : List Byte) : (s.writeMemBytes a bs).key = s.key := rfl
@[simp] theorem State.writeMemBytes_rnd (a : Nat) (bs : List Byte) : (s.writeMemBytes a bs).rnd = s.rnd := rfl
@[simp] theorem State.writeMemBytes_draws (a : Nat) (bs : List Byte) : (s.writeMemBytes a bs).draws = s.draws := rfl
@[simp] theorem State.writeMemBytes_loadWindow (a : Nat) (bs : List Byte) : (s.writeMemBytes a bs).loadWindow = s.loadWindow := rfl
@[simp] theorem State.writeMemBytes_loadError (a : Nat) (bs : List Byte) : (s.writeMemBytes a bs).loadError = s.loadError := rfl
@[simp] theorem State.writeMemBytes_params (a : Nat) (bs : List Byte) : (s.writeMemBytes a bs).params = s.params := rfl

end Sys2Proof.Machine
end

