-- ==== Sys2Proof/Laws/Ops.lean ====
section
/-! SUPPORT. What each shared operation can do, said once: registers, image, display, stack, faults, and the loops of
the draw, the dump and the load. -/

namespace Sys2Proof.Machine

variable (s : State)

/-! ### Registers -/

theorem State.reg_setReg (x : Reg) (b : Byte) (r : Reg) : (s.setReg x b).reg r = if r = x then b else s.reg r := by
  simp only [State.reg, State.setReg, Vector.get_eq_getElem, Vector.getElem_set, Fin.val_inj, eq_comm]

@[simp] theorem State.reg_setReg_same (x : Reg) (b : Byte) : (s.setReg x b).reg x = b := by
  simp [State.reg_setReg]

theorem State.reg_setReg_other {x r : Reg} (h : r ≠ x) (b : Byte) : (s.setReg x b).reg r = s.reg r := by
  simp [State.reg_setReg, h]

/-- A state with the same register file has the same registers. -/
theorem State.reg_congr {s t : State} (h : t.V = s.V) (r : Reg) : t.reg r = s.reg r := by
  simp only [State.reg, h]

@[simp] theorem State.reg_setI (a : Word) (r : Reg) : (s.setI a).reg r = s.reg r := rfl
@[simp] theorem State.reg_setPc (a : Word) (r : Reg) : (s.setPc a).reg r = s.reg r := rfl
@[simp] theorem State.reg_setDt (b : Byte) (r : Reg) : (s.setDt b).reg r = s.reg r := rfl
@[simp] theorem State.reg_setStack (l : List Word) (r : Reg) : (s.setStack l).reg r = s.reg r := rfl
@[simp] theorem State.reg_skipIf (c : Bool) (r : Reg) : (s.skipIf c).reg r = s.reg r := rfl
@[simp] theorem State.reg_writeMem (a : Nat) (b : Byte) (r : Reg) : (s.writeMem a b).reg r = s.reg r := rfl
@[simp] theorem State.reg_setPixel (x : Fin 64) (y : Fin 32) (b : Bool) (r : Reg) :
    (s.setPixel x y b).reg r = s.reg r := rfl
@[simp] theorem State.reg_clearDisplay (r : Reg) : s.clearDisplay.reg r = s.reg r := rfl
@[simp] theorem State.reg_enterWait (x r : Reg) : (s.enterWait x).reg r = s.reg r := rfl
@[simp] theorem State.reg_raiseFault (c : FaultCause) (r : Reg) : (s.raiseFault c).reg r = s.reg r := rfl
@[simp] theorem State.reg_advance (w : Word) (r : Reg) : (s.advance w).reg r = s.reg r := rfl
@[simp] theorem State.reg_sample (k b : Byte) (r : Reg) : (s.sample k b).reg r = s.reg r := rfl

theorem State.reg_acceptKey (k : Byte) (r : Reg) :
    (s.acceptKey k).reg r = if r = s.waitReg then k else s.reg r :=
  s.reg_setReg s.waitReg k r

/-! ### Image -/

/-- A state with the same image reads the same bytes. -/
theorem State.readMem_congr {s t : State} (h : t.mem = s.mem) (hp : t.params = s.params) (a : Nat) :
    t.readMem a = s.readMem a := by
  simp only [State.readMem, h, hp]

theorem State.readMem_writeMem {s : State} (h : s.mem.wf s.params.font = true) (a : Nat) (b : Byte) (x : Nat) :
    (s.writeMem a b).readMem x = if x = a then b else s.readMem x :=
  Memory.read_write h a b x

@[simp] theorem State.readMem_setReg (x : Reg) (b : Byte) (a : Nat) : (s.setReg x b).readMem a = s.readMem a := rfl
@[simp] theorem State.readMem_setPixel (x : Fin 64) (y : Fin 32) (b : Bool) (a : Nat) :
    (s.setPixel x y b).readMem a = s.readMem a := rfl

/-- The bounds check, in the spec's words: some byte is accessed and the last one lies above 4095. -/
theorem spanOutOfImage_iff (base count : Nat) :
    spanOutOfImage base count = true ↔ 0 < count ∧ base + count - 1 > 4095 := by
  simp only [spanOutOfImage, decide_eq_true_eq]; omega

/-! ### Display -/

theorem Display.get_set (d : Display) (x : Fin 64) (y : Fin 32) (b : Bool) (x' : Fin 64) (y' : Fin 32) :
    (d.set x y b).get x' y' = if x' = x ∧ y' = y then b else d.get x' y' := by
  simp only [Display.get, Display.set, Vector.get_eq_getElem, Vector.getElem_set, Fin.val_inj]
  by_cases hy : y = y'
  · subst hy
    by_cases hx : x = x'
    · subst hx; simp
    · simp [Ne.symm hx, hx, Fin.val_inj]
  · simp [hy, Ne.symm hy]

theorem Display.get_blank (x : Fin 64) (y : Fin 32) : Display.blank.get x y = false := by
  simp [Display.get, Display.blank, Vector.get_eq_getElem]

theorem State.pixel_setPixel (x : Fin 64) (y : Fin 32) (b : Bool) (x' : Fin 64) (y' : Fin 32) :
    (s.setPixel x y b).pixel x' y' = if x' = x ∧ y' = y then b else s.pixel x' y' :=
  s.px.get_set x y b x' y'

@[simp] theorem State.pixel_setReg (r : Reg) (b : Byte) (x : Fin 64) (y : Fin 32) :
    (s.setReg r b).pixel x y = s.pixel x y := rfl

theorem State.pixel_clearDisplay (x : Fin 64) (y : Fin 32) : s.clearDisplay.pixel x y = false :=
  Display.get_blank x y

/-! ### Stack and faults -/

/-- What a push can do. -/
theorem State.push_cases (v : Word) :
    (s.params.stackDepth ≤ s.stack.length ∧ s.push v = .error .stackOverflow) ∨
    (s.stack.length < s.params.stackDepth ∧ s.push v = .ok (s.setStack (v :: s.stack))) := by
  unfold State.push
  split
  · next h => exact .inl ⟨h, rfl⟩
  · next h => exact .inr ⟨by omega, rfl⟩

/-- What a pop can do. -/
theorem State.pop_cases :
    (s.stack = [] ∧ s.pop = .error .stackUnderflow) ∨
    (∃ v rest, s.stack = v :: rest ∧ s.pop = .ok (v, s.setStack rest)) := by
  unfold State.pop
  cases h : s.stack with
  | nil => exact .inl ⟨rfl, rfl⟩
  | cons v rest => exact .inr ⟨v, rest, rfl, rfl⟩

@[simp] theorem State.commit_ok (t : State) : s.commit (.ok t) = t := rfl
@[simp] theorem State.commit_error (c : FaultCause) : s.commit (.error c) = s.raiseFault c := rfl

/-- What a checked instruction can do: take the fault on the state it found, or end in its result. -/
theorem State.commit_if (c : Bool) (f : FaultCause) (t : State) :
    s.commit (if c then .error f else .ok t) = if c then s.raiseFault f else t := by
  cases c <;> rfl

/-! ### Flag-writing instructions -/

/-- The registers after a flag and a result. -/
theorem State.reg_flagThenResult (x : Reg) (flag : Byte) (result : State → Byte) (r : Reg) :
    (s.flagThenResult x flag result).reg r =
      if r = x then result (s.setReg VF flag) else if r = VF then flag else s.reg r := by
  simp only [State.flagThenResult, State.reg_setReg]

/-! ### The draw -/

/-- One sprite bit touches the display and `VF` alone. -/
theorem State.drawBit_eq (x : Fin 64) (y : Fin 32) (bit : Bool) :
    s.drawBit x y bit =
      { s with px := s.px.set x y (s.pixel x y ^^ bit)
               V := if collides (s.pixel x y) bit then s.V.set VF.val 0x01 VF.isLt else s.V } := by
  unfold State.drawBit; split <;> rfl

/-- Two states that agree on all but the display and `VF`. -/
structure SameButDraw (s t : State) : Prop where
  reg : ∀ r, r ≠ VF → t.reg r = s.reg r
  rest : t = { s with V := t.V, px := t.px }

theorem SameButDraw.refl : SameButDraw s s := ⟨fun _ _ => rfl, rfl⟩

theorem SameButDraw.trans {s t u : State} (h : SameButDraw s t) (h' : SameButDraw t u) : SameButDraw s u :=
  ⟨fun r hr => (h'.reg r hr).trans (h.reg r hr), by rw [h'.rest, h.rest]⟩

theorem State.drawBit_same (x : Fin 64) (y : Fin 32) (bit : Bool) : SameButDraw s (s.drawBit x y bit) := by
  unfold State.drawBit
  split
  · exact ⟨fun r hr => State.reg_setReg_other _ hr _, rfl⟩
  · exact ⟨fun _ _ => rfl, rfl⟩

theorem State.drawBits_same (x0 : Byte) (y : Fin 32) (row : Byte) (n : Nat) :
    SameButDraw s (s.drawBits x0 y row n) := by
  induction n with
  | zero => exact SameButDraw.refl s
  | succ n ih => exact ih.trans (State.drawBit_same _ _ _ _)

theorem State.drawRows_same (x0 y0 : Byte) (n : Nat) : SameButDraw s (s.drawRows x0 y0 n) := by
  induction n with
  | zero => exact SameButDraw.refl s
  | succ n ih => exact ih.trans (State.drawBits_same _ _ _ _ _)

/-- A draw changes the display and `VF` alone. -/
theorem State.drawSprite_same (x y : Reg) (n : Nat) : SameButDraw s (s.drawSprite x y n) :=
  SameButDraw.trans ⟨fun _ hr => State.reg_setReg_other _ hr _, rfl⟩ (State.drawRows_same _ _ _ _)

/-! ### The dump and the load -/

/-- The dump changes the image alone. -/
theorem State.storeRegs_rest (n : Nat) : s.storeRegs n = { s with mem := (s.storeRegs n).mem } := by
  induction n with
  | zero => rfl
  | succ n ih => unfold State.storeRegs; rw [ih]; rfl

theorem State.storeRegs_params (n : Nat) : (s.storeRegs n).params = s.params := by rw [State.storeRegs_rest]

theorem State.storeRegs_wf {s : State} (h : s.mem.wf s.params.font = true) {n : Nat}
    (hn : s.I.toNat + n ≤ Config.imageBytes) : (s.storeRegs n).mem.wf s.params.font = true := by
  induction n with
  | zero => exact h
  | succ n ih =>
    unfold State.storeRegs
    rw [State.writeMem_mem, State.storeRegs_params]
    refine Memory.wf_write (ih (by omega)) ?_ _
    rw [State.storeRegs_rest]; show s.I.toNat + n < _; omega

/-- The byte each address reads after the dump of `n` registers. -/
theorem State.readMem_storeRegs {s : State} (h : s.mem.wf s.params.font = true) {n : Nat}
    (hn : s.I.toNat + n ≤ Config.imageBytes) (a : Nat) :
    (s.storeRegs n).readMem a =
      if s.I.toNat ≤ a ∧ a < s.I.toNat + n then s.reg (Fin.ofNat 16 (a - s.I.toNat)) else s.readMem a := by
  induction n with
  | zero => rw [if_neg (by omega)]; rfl
  | succ n ih =>
    have hi : (s.storeRegs n).indexed n = s.I.toNat + n := by rw [State.storeRegs_rest]; rfl
    have hr : (s.storeRegs n).reg (Fin.ofNat 16 n) = s.reg (Fin.ofNat 16 n) := by rw [State.storeRegs_rest]; rfl
    unfold State.storeRegs
    have hwf : (s.storeRegs n).mem.wf (s.storeRegs n).params.font = true := by
      rw [State.storeRegs_params]; exact State.storeRegs_wf h (by omega)
    rw [State.readMem_writeMem hwf, ih (by omega), hi, hr]
    by_cases ha : a = s.I.toNat + n
    · subst ha; simp
    · rw [if_neg ha]
      by_cases hlt : s.I.toNat ≤ a ∧ a < s.I.toNat + n
      · rw [if_pos hlt, if_pos ⟨hlt.1, by omega⟩]
      · rw [if_neg hlt, if_neg (by omega)]

/-- The load changes registers alone. -/
theorem State.loadRegs_rest (n : Nat) : s.loadRegs n = { s with V := (s.loadRegs n).V } := by
  induction n with
  | zero => rfl
  | succ n ih => unfold State.loadRegs; rw [ih]; rfl

/-- The registers after the load of `n` of them. -/
theorem State.reg_loadRegs {n : Nat} (hn : n ≤ 16) (r : Reg) :
    (s.loadRegs n).reg r = if r.val < n then s.readMem (s.I.toNat + r.val) else s.reg r := by
  induction n with
  | zero => simp [State.loadRegs]
  | succ n ih =>
    have hm : (s.loadRegs n).readMem ((s.loadRegs n).indexed n) = s.readMem (s.I.toNat + n) := by
      rw [State.loadRegs_rest]; rfl
    unfold State.loadRegs
    rw [State.reg_setReg, ih (by omega), hm]
    by_cases hr : r = Fin.ofNat 16 n
    · have : r.val = n := by rw [hr]; simp [Fin.ofNat, Nat.mod_eq_of_lt (show n < 16 by omega)]
      rw [if_pos hr, if_pos (by omega), this]
    · have : r.val ≠ n := fun h => hr (by ext; simp [Fin.ofNat, h, Nat.mod_eq_of_lt (show n < 16 by omega)])
      rw [if_neg hr]
      by_cases hlt : r.val < n
      · rw [if_pos hlt, if_pos (by omega)]
      · rw [if_neg hlt, if_neg (by omega)]

/-! ### The fetch -/

/-- What a fetch can do. -/
theorem State.fetch_cases :
    (s.pc.toNat + 1 > 4095 ∧ s.fetch = .error .fetchOutOfBounds) ∨
    (s.pc.toNat + 1 ≤ 4095 ∧
      s.fetch = .ok (wordOfBytes (s.readMem s.pc.toNat) (s.readMem (s.pc.toNat + 1)))) := by
  unfold State.fetch
  split
  · next h => exact .inl ⟨h, rfl⟩
  · next h => exact .inr ⟨by omega, rfl⟩

end Sys2Proof.Machine
end

