-- ==== Sys2Proof/Laws/Step.lean ====
section
/-! SUPPORT. What a `Tick`, an event and a step can do, said once. -/

namespace Sys2Proof.Machine

variable (s : State)

/-- The decoder reads a word from its two bytes, high byte first. -/
theorem decodeBytes_word (w : Word) : decodeBytes [highByte w, lowByte w] = decodeWord w := by
  have : wordOfBytes (highByte w) (lowByte w) = w := by
    apply BitVec.eq_of_getLsbD_eq
    intro i hi
    simp only [wordOfBytes, highByte, lowByte, BitVec.getLsbD_append, BitVec.getLsbD_extractLsb']
    by_cases h : i < 8
    · simp [h]
    · simp [h, show i - 8 < 8 by omega, show 8 + (i - 8) = i by omega]
  simp only [decodeBytes, this]

/-- What running a fetched word can do. -/
theorem State.runWord_cases (w : Word) :
    (∃ i, decodeWord w = .ok i ∧ s.runWord w = exec i (s.advance w)) ∨
    (∃ e, decodeWord w = .error e ∧ s.runWord w = .next ((s.advance w).raiseFault .illegalInstruction)) := by
  unfold State.runWord
  rw [decodeBytes_word]
  cases h : decodeWord w with
  | ok i => exact .inl ⟨i, rfl, rfl⟩
  | error e => exact .inr ⟨e, rfl, rfl⟩

/-- What a `Tick` can do (40_engine.md R90). -/
theorem State.tick_cases (key rnd : Byte) :
    (s.fsm = .faulted ∧ s.tick key rnd = .next s) ∨
    (s.fsm = .awaitingKey ∧ key = 0x00 ∧ s.tick key rnd = .next s) ∨
    (s.fsm = .awaitingKey ∧ key ≠ 0x00 ∧ s.tick key rnd = .next (s.acceptKey key)) ∨
    (s.fsm = .running ∧ s.pc.toNat + 1 > 4095 ∧ s.tick key rnd = .next (s.raiseFault .fetchOutOfBounds)) ∨
    (s.fsm = .running ∧ s.pc.toNat + 1 ≤ 4095 ∧
      s.tick key rnd = (s.sample key rnd).runWord
        (wordOfBytes (s.readMem s.pc.toNat) (s.readMem (s.pc.toNat + 1)))) := by
  cases h : s.fsm with
  | faulted => exact .inl ⟨rfl, by simp [State.tick, h]⟩
  | awaitingKey =>
    by_cases hk : key = 0x00
    · exact .inr (.inl ⟨rfl, hk, by simp [State.tick, h, hk]⟩)
    · exact .inr (.inr (.inl ⟨rfl, hk, by simp only [State.tick, h, if_neg hk]⟩))
  | running =>
    rcases s.fetch_cases with ⟨hp, hf⟩ | ⟨hp, hf⟩
    · exact .inr (.inr (.inr (.inl ⟨rfl, hp, by simp [State.tick, h, hf]⟩)))
    · exact .inr (.inr (.inr (.inr ⟨rfl, hp, by simp [State.tick, h, hf]⟩)))

/-- What the load of a program can do (20_memory.md R54). -/
theorem State.loadProgram_cases (bytes : List Byte) :
    (s.loadWindow = false ∧ s.loadProgram bytes = .refused .loadAfterFirstTick) ∨
    (s.loadWindow = true ∧ Config.programBase + bytes.length > Config.imageBytes ∧
      s.loadProgram bytes = .next (s.setLoadError true)) ∨
    (s.loadWindow = true ∧ Config.programBase + bytes.length ≤ Config.imageBytes ∧
      s.loadProgram bytes = .next ((s.loadBytes bytes).setLoadError false)) := by
  unfold State.loadProgram
  cases hw : s.loadWindow with
  | false => exact .inl ⟨rfl, rfl⟩
  | true =>
    by_cases hf : Config.programBase + bytes.length ≤ Config.imageBytes
    · exact .inr (.inr ⟨rfl, hf, by simp [programFits, hf]⟩)
    · exact .inr (.inl ⟨rfl, by omega, by simp [programFits, hf]⟩)

/-- What taking the next event can do: the oldest one pending, or a `Tick` with free inputs. -/
theorem State.takeEvent_cases :
    (s.pending = [] ∧ s.takeEvent = (.tick (Config.freeKey s.draws) (Config.freeRnd s.draws), s.countDraw)) ∨
    (∃ e rest, s.pending = e :: rest ∧ s.takeEvent = (e, s.setPending rest)) := by
  unfold State.takeEvent
  cases h : s.pending with
  | nil => exact .inl ⟨rfl, rfl⟩
  | cons e rest => exact .inr ⟨e, rest, rfl, rfl⟩

/-- What a step can do: perform the oldest event, or a `Tick` with free inputs. -/
theorem step_cases :
    (s.pending = [] ∧
      step s = s.countDraw.perform (.tick (Config.freeKey s.draws) (Config.freeRnd s.draws))) ∨
    (∃ e rest, s.pending = e :: rest ∧ step s = (s.setPending rest).perform e) := by
  rcases s.takeEvent_cases with ⟨h, ht⟩ | ⟨e, rest, h, ht⟩
  · exact .inl ⟨h, by rw [step, ht]⟩
  · exact .inr ⟨e, rest, h, by rw [step, ht]⟩

end Sys2Proof.Machine
end

