-- ==== Sys2Proof/Laws/Frames.lean ====
section
/-! SUPPORT. The frame of each shared operation. -/

namespace Sys2Proof.Machine

variable (s : State)

theorem Frame.refl (regs : List Reg) (parts : List Part) : Frame regs parts s s := by
  constructor <;> intros <;> rfl

/-- Frames follow one another when the first allows no more than the second. -/
theorem Frame.trans {regs : List Reg} {parts : List Part} {s t u : State} (h : Frame regs parts s t)
    (h' : Frame regs parts t u) : Frame regs parts s u where
  regs r hr := (h'.regs r hr).trans (h.regs r hr)
  I hp := (h'.I hp).trans (h.I hp)
  pc hp := (h'.pc hp).trans (h.pc hp)
  stack hp := (h'.stack hp).trans (h.stack hp)
  mem hp a := (h'.mem hp a).trans (h.mem hp a)
  px hp x y := (h'.px hp x y).trans (h.px hp x y)
  dt hp := (h'.dt hp).trans (h.dt hp)
  fsm hp := (h'.fsm hp).trans (h.fsm hp)
  waitReg hp := (h'.waitReg hp).trans (h.waitReg hp)
  lastInstr hp := (h'.lastInstr hp).trans (h.lastInstr hp)
  faultCause hp := (h'.faultCause hp).trans (h.faultCause hp)
  pending hp := (h'.pending hp).trans (h.pending hp)
  key hp := (h'.key hp).trans (h.key hp)
  rnd hp := (h'.rnd hp).trans (h.rnd hp)
  draws hp := (h'.draws hp).trans (h.draws hp)
  loadWindow hp := (h'.loadWindow hp).trans (h.loadWindow hp)
  loadError hp := (h'.loadError hp).trans (h.loadError hp)
  params := h'.params.trans h.params

/-- A frame that allows more. -/
theorem Frame.mono {regs regs' : List Reg} {parts parts' : List Part} {s t : State} (h : Frame regs parts s t)
    (hr : regs ⊆ regs') (hp : parts ⊆ parts') : Frame regs' parts' s t where
  regs r hx := h.regs r (fun hm => hx (hr hm))
  I hx := h.I (fun hm => hx (hp hm))
  pc hx := h.pc (fun hm => hx (hp hm))
  stack hx := h.stack (fun hm => hx (hp hm))
  mem hx := h.mem (fun hm => hx (hp hm))
  px hx := h.px (fun hm => hx (hp hm))
  dt hx := h.dt (fun hm => hx (hp hm))
  fsm hx := h.fsm (fun hm => hx (hp hm))
  waitReg hx := h.waitReg (fun hm => hx (hp hm))
  lastInstr hx := h.lastInstr (fun hm => hx (hp hm))
  faultCause hx := h.faultCause (fun hm => hx (hp hm))
  pending hx := h.pending (fun hm => hx (hp hm))
  key hx := h.key (fun hm => hx (hp hm))
  rnd hx := h.rnd (fun hm => hx (hp hm))
  draws hx := h.draws (fun hm => hx (hp hm))
  loadWindow hx := h.loadWindow (fun hm => hx (hp hm))
  loadError hx := h.loadError (fun hm => hx (hp hm))
  params := h.params

theorem State.setReg_frame (x : Reg) (b : Byte) : Frame [x] [] s (s.setReg x b) := by
  constructor
  case regs => intro r hr; exact s.reg_setReg_other (by simpa using hr) b
  all_goals intros; rfl

theorem State.setI_frame (a : Word) : Frame [] [.I] s (s.setI a) := by
  constructor
  case I => simp
  all_goals intros; rfl

theorem State.setPc_frame (a : Word) : Frame [] [.pc] s (s.setPc a) := by
  constructor
  case pc => simp
  all_goals intros; rfl

theorem State.skipIf_frame (c : Bool) : Frame [] [.pc] s (s.skipIf c) := s.setPc_frame _

theorem State.setDt_frame (b : Byte) : Frame [] [.dt] s (s.setDt b) := by
  constructor
  case dt => simp
  all_goals intros; rfl

theorem State.setStack_frame (l : List Word) : Frame [] [.stack] s (s.setStack l) := by
  constructor
  case stack => simp
  all_goals intros; rfl

theorem State.writeMem_frame (a : Nat) (b : Byte) : Frame [] [.mem] s (s.writeMem a b) := by
  constructor
  case mem => simp
  all_goals intros; rfl

theorem State.clearDisplay_frame : Frame [] [.px] s s.clearDisplay := by
  constructor
  case px => simp
  all_goals intros; rfl

theorem State.enterWait_frame (x : Reg) : Frame [] [.fsm, .waitReg] s (s.enterWait x) := by
  constructor
  case fsm => simp
  case waitReg => simp
  all_goals intros; rfl

theorem State.acceptKey_frame (k : Byte) : Frame [s.waitReg] [.fsm] s (s.acceptKey k) := by
  constructor
  case regs => intro r hr; exact s.reg_setReg_other (by simpa using hr) k
  case fsm => simp
  all_goals intros; rfl

theorem State.advance_frame (w : Word) : Frame [] [.pc, .lastInstr] s (s.advance w) := by
  constructor
  case pc => simp
  case lastInstr => simp
  all_goals intros; rfl

theorem State.sample_frame (k r : Byte) : Frame [] [.key, .rnd] s (s.sample k r) := by
  constructor
  case key => simp
  case rnd => simp
  all_goals intros; rfl

theorem State.setPending_frame (l : List Event) : Frame [] [.pending] s (s.setPending l) := by
  constructor
  case pending => simp
  all_goals intros; rfl

theorem State.countDraw_frame : Frame [] [.draws] s s.countDraw := by
  constructor
  case draws => simp
  all_goals intros; rfl

theorem State.closeLoadWindow_frame : Frame [] [.loadWindow] s s.closeLoadWindow := by
  constructor
  case loadWindow => simp
  all_goals intros; rfl

theorem State.setLoadError_frame (b : Bool) : Frame [] [.loadError] s (s.setLoadError b) := by
  constructor
  case loadError => simp
  all_goals intros; rfl

theorem State.loadBytes_frame (bytes : List Byte) : Frame [] [.mem] s (s.loadBytes bytes) := by
  constructor
  case mem => simp
  all_goals intros; rfl

theorem State.raiseFault_taken (c : FaultCause) : FaultTaken c s (s.raiseFault c) := by
  refine ⟨rfl, rfl, ?_⟩
  constructor
  case fsm => simp
  case faultCause => simp
  all_goals intros; rfl

theorem State.flagThenResult_frame (x : Reg) (flag : Byte) (result : State → Byte) :
    Frame [x, VF] [] s (s.flagThenResult x flag result) :=
  ((s.setReg_frame VF flag).mono (by simp) (by simp)).trans
    (((s.setReg VF flag).setReg_frame x _).mono (by simp) (by simp))

/-- A draw changes the display and `VF` alone. -/
theorem SameButDraw.frame {s t : State} (h : SameButDraw s t) : Frame [VF] [.px] s t := by
  obtain ⟨hr, hrest⟩ := h
  constructor
  case regs => intro r hm; exact hr r (by simpa using hm)
  case px => simp
  all_goals intros; rw [hrest]
  all_goals rfl

theorem State.storeRegs_frame (n : Nat) : Frame [] [.mem] s (s.storeRegs n) := by
  rw [State.storeRegs_rest]
  constructor
  case mem => simp
  all_goals intros; rfl

theorem State.loadRegs_frame {n : Nat} (hn : n ≤ 16) :
    Frame ((List.finRange 16).filter (fun k => decide (k.val < n))) [] s (s.loadRegs n) := by
  have hreg := s.reg_loadRegs hn
  rw [State.loadRegs_rest] at hreg ⊢
  constructor
  case regs =>
    intro r hr
    rw [hreg r, if_neg]
    simpa using hr
  all_goals intros; rfl

end Sys2Proof.Machine
end

