-- ==== Sys2Proof/Laws/PerInstr.lean ====
section
/-! SUPPORT. Laws that hold of every instruction as syntax, one lemma per constructor. The family
`EncodeSelectsRow`: the word of an instruction selects the row of the opcode map the instruction is named after
(30_encoding.md R74). -/

namespace Sys2Proof.Laws

/-- Format A under the mask of the class. -/
theorem formatA_and_class (c : Nibble) (nnn : Addr) : formatA c nnn &&& 0xF000 = formatA c 0 := by
  apply BitVec.eq_of_getLsbD_eq
  intro i hi
  simp only [formatA, BitVec.getLsbD_and, BitVec.getLsbD_append]
  interval_cases i <;> simp

/-- Format I under the mask of the class. -/
theorem formatI_and_class (c : Nibble) (x : Reg) (nn : Byte) : formatI c x nn &&& 0xF000 = formatI c 0 0 := by
  apply BitVec.eq_of_getLsbD_eq
  intro i hi
  simp only [formatI, BitVec.getLsbD_and, BitVec.getLsbD_append]
  interval_cases i <;> simp [nibbleOfReg]

/-- Format I under the mask of the class and the function code. -/
theorem formatI_and_code (c : Nibble) (x : Reg) (nn : Byte) : formatI c x nn &&& 0xF0FF = formatI c 0 nn := by
  apply BitVec.eq_of_getLsbD_eq
  intro i hi
  simp only [formatI, BitVec.getLsbD_and, BitVec.getLsbD_append]
  interval_cases i <;> simp [nibbleOfReg]

/-- Format R under the mask of the class. -/
theorem formatR_and_class (c : Nibble) (x y : Reg) (n : Nibble) : formatR c x y n &&& 0xF000 = formatR c 0 0 0 := by
  apply BitVec.eq_of_getLsbD_eq
  intro i hi
  simp only [formatR, BitVec.getLsbD_and, BitVec.getLsbD_append]
  interval_cases i <;> simp [nibbleOfReg]

/-- Format R under the mask of the class and the function code. -/
theorem formatR_and_code (c : Nibble) (x y : Reg) (n : Nibble) : formatR c x y n &&& 0xF00F = formatR c 0 0 n := by
  apply BitVec.eq_of_getLsbD_eq
  intro i hi
  simp only [formatR, BitVec.getLsbD_and, BitVec.getLsbD_append]
  interval_cases i <;> simp [nibbleOfReg]

/-- The word of the instruction selects the instruction's row. -/
def EncodeSelectsRow.Statement (i : Instr) : Prop := i.row.selects (encode i) = true

theorem EncodeSelectsRow.cls : EncodeSelectsRow.Statement .cls := by unfold EncodeSelectsRow.Statement; decide
theorem EncodeSelectsRow.ret : EncodeSelectsRow.Statement .ret := by unfold EncodeSelectsRow.Statement; decide

theorem EncodeSelectsRow.jp (nnn : Addr) : EncodeSelectsRow.Statement (.jp nnn) := by
  simp only [EncodeSelectsRow.Statement, Instr.row, Row.selects, encode, formatA_and_class]; decide
theorem EncodeSelectsRow.call (nnn : Addr) : EncodeSelectsRow.Statement (.call nnn) := by
  simp only [EncodeSelectsRow.Statement, Instr.row, Row.selects, encode, formatA_and_class]; decide
theorem EncodeSelectsRow.seImm (x : Reg) (nn : Byte) : EncodeSelectsRow.Statement (.seImm x nn) := by
  simp only [EncodeSelectsRow.Statement, Instr.row, Row.selects, encode, formatI_and_class]; decide
theorem EncodeSelectsRow.sneImm (x : Reg) (nn : Byte) : EncodeSelectsRow.Statement (.sneImm x nn) := by
  simp only [EncodeSelectsRow.Statement, Instr.row, Row.selects, encode, formatI_and_class]; decide
theorem EncodeSelectsRow.seReg (x y : Reg) : EncodeSelectsRow.Statement (.seReg x y) := by
  simp only [EncodeSelectsRow.Statement, Instr.row, Row.selects, encode, formatR_and_class]; decide
theorem EncodeSelectsRow.ldImm (x : Reg) (nn : Byte) : EncodeSelectsRow.Statement (.ldImm x nn) := by
  simp only [EncodeSelectsRow.Statement, Instr.row, Row.selects, encode, formatI_and_class]; decide
theorem EncodeSelectsRow.addImm (x : Reg) (nn : Byte) : EncodeSelectsRow.Statement (.addImm x nn) := by
  simp only [EncodeSelectsRow.Statement, Instr.row, Row.selects, encode, formatI_and_class]; decide
theorem EncodeSelectsRow.ldReg (x y : Reg) : EncodeSelectsRow.Statement (.ldReg x y) := by
  simp only [EncodeSelectsRow.Statement, Instr.row, Row.selects, encode, formatR_and_code]; decide
theorem EncodeSelectsRow.or (x y : Reg) : EncodeSelectsRow.Statement (.or x y) := by
  simp only [EncodeSelectsRow.Statement, Instr.row, Row.selects, encode, formatR_and_code]; decide
theorem EncodeSelectsRow.and (x y : Reg) : EncodeSelectsRow.Statement (.and x y) := by
  simp only [EncodeSelectsRow.Statement, Instr.row, Row.selects, encode, formatR_and_code]; decide
theorem EncodeSelectsRow.xor (x y : Reg) : EncodeSelectsRow.Statement (.xor x y) := by
  simp only [EncodeSelectsRow.Statement, Instr.row, Row.selects, encode, formatR_and_code]; decide
theorem EncodeSelectsRow.addReg (x y : Reg) : EncodeSelectsRow.Statement (.addReg x y) := by
  simp only [EncodeSelectsRow.Statement, Instr.row, Row.selects, encode, formatR_and_code]; decide
theorem EncodeSelectsRow.sub (x y : Reg) : EncodeSelectsRow.Statement (.sub x y) := by
  simp only [EncodeSelectsRow.Statement, Instr.row, Row.selects, encode, formatR_and_code]; decide
theorem EncodeSelectsRow.shr (x : Reg) : EncodeSelectsRow.Statement (.shr x) := by
  simp only [EncodeSelectsRow.Statement, Instr.row, Row.selects, encode, formatR_and_code]; decide
theorem EncodeSelectsRow.subn (x y : Reg) : EncodeSelectsRow.Statement (.subn x y) := by
  simp only [EncodeSelectsRow.Statement, Instr.row, Row.selects, encode, formatR_and_code]; decide
theorem EncodeSelectsRow.shl (x : Reg) : EncodeSelectsRow.Statement (.shl x) := by
  simp only [EncodeSelectsRow.Statement, Instr.row, Row.selects, encode, formatR_and_code]; decide
theorem EncodeSelectsRow.sneReg (x y : Reg) : EncodeSelectsRow.Statement (.sneReg x y) := by
  simp only [EncodeSelectsRow.Statement, Instr.row, Row.selects, encode, formatR_and_class]; decide
theorem EncodeSelectsRow.ldI (nnn : Addr) : EncodeSelectsRow.Statement (.ldI nnn) := by
  simp only [EncodeSelectsRow.Statement, Instr.row, Row.selects, encode, formatA_and_class]; decide
theorem EncodeSelectsRow.jpV0 (nnn : Addr) : EncodeSelectsRow.Statement (.jpV0 nnn) := by
  simp only [EncodeSelectsRow.Statement, Instr.row, Row.selects, encode, formatA_and_class]; decide
theorem EncodeSelectsRow.rnd (x : Reg) (nn : Byte) : EncodeSelectsRow.Statement (.rnd x nn) := by
  simp only [EncodeSelectsRow.Statement, Instr.row, Row.selects, encode, formatI_and_class]; decide
theorem EncodeSelectsRow.drw (x y : Reg) (n : Nibble) : EncodeSelectsRow.Statement (.drw x y n) := by
  simp only [EncodeSelectsRow.Statement, Instr.row, Row.selects, encode, formatR_and_class]; decide
theorem EncodeSelectsRow.skp (x : Reg) : EncodeSelectsRow.Statement (.skp x) := by
  simp only [EncodeSelectsRow.Statement, Instr.row, Row.selects, encode, formatI_and_code]; decide
theorem EncodeSelectsRow.sknp (x : Reg) : EncodeSelectsRow.Statement (.sknp x) := by
  simp only [EncodeSelectsRow.Statement, Instr.row, Row.selects, encode, formatI_and_code]; decide
theorem EncodeSelectsRow.ldFromDt (x : Reg) : EncodeSelectsRow.Statement (.ldFromDt x) := by
  simp only [EncodeSelectsRow.Statement, Instr.row, Row.selects, encode, formatI_and_code]; decide
theorem EncodeSelectsRow.ldKey (x : Reg) : EncodeSelectsRow.Statement (.ldKey x) := by
  simp only [EncodeSelectsRow.Statement, Instr.row, Row.selects, encode, formatI_and_code]; decide
theorem EncodeSelectsRow.ldToDt (x : Reg) : EncodeSelectsRow.Statement (.ldToDt x) := by
  simp only [EncodeSelectsRow.Statement, Instr.row, Row.selects, encode, formatI_and_code]; decide
theorem EncodeSelectsRow.ldSt (x : Reg) : EncodeSelectsRow.Statement (.ldSt x) := by
  simp only [EncodeSelectsRow.Statement, Instr.row, Row.selects, encode, formatI_and_code]; decide
theorem EncodeSelectsRow.addI (x : Reg) : EncodeSelectsRow.Statement (.addI x) := by
  simp only [EncodeSelectsRow.Statement, Instr.row, Row.selects, encode, formatI_and_code]; decide
theorem EncodeSelectsRow.ldFont (x : Reg) : EncodeSelectsRow.Statement (.ldFont x) := by
  simp only [EncodeSelectsRow.Statement, Instr.row, Row.selects, encode, formatI_and_code]; decide
theorem EncodeSelectsRow.ldBcd (x : Reg) : EncodeSelectsRow.Statement (.ldBcd x) := by
  simp only [EncodeSelectsRow.Statement, Instr.row, Row.selects, encode, formatI_and_code]; decide
theorem EncodeSelectsRow.dump (x : Reg) : EncodeSelectsRow.Statement (.dump x) := by
  simp only [EncodeSelectsRow.Statement, Instr.row, Row.selects, encode, formatI_and_code]; decide
theorem EncodeSelectsRow.load (x : Reg) : EncodeSelectsRow.Statement (.load x) := by
  simp only [EncodeSelectsRow.Statement, Instr.row, Row.selects, encode, formatI_and_code]; decide

end Sys2Proof.Laws
end

