-- ==== Sys2Proof/Tests/Slice0.lean ====
section
/-! SUPPORT. Tests. Every expected value is one of spec/95_test_vectors.md (the vector's number stands in the comment)
or is worked from the rule named; none is the model's own answer. After them, one witness for every statement that has
hypotheses. -/

open Sys2Proof Sys2Proof.Machine

namespace Sys2Proof.Tests

/-! ### Helpers -/

/-- Some registers given a value. -/
def withRegs (l : List (Reg × Byte)) (s : State) : State := l.foldl (fun s p => s.setReg p.1 p.2) s

/-- Some bytes of the image given a value, from an address on. -/
def withBytes (a : Nat) (bs : List Byte) (s : State) : State := s.writeMemBytes a bs

/-- What is seen of the state after one `Tick` that fetches the word at `pc`. -/
def after {α : Type} (w : Nat) (s : State) (see : State → α) (key rnd : Byte := 0x00) : Option α :=
  match (s.withFetchWord 16 w).tick key rnd with
  | .next t => some (see t)
  | _ => none

/-- What is seen of the state after one event. -/
def seen {α : Type} (o : Host.Outcome State Fault Refusal) (see : State → α) : Option α :=
  match o with
  | .next t => some (see t)
  | _ => none


/-! ### Decoding: words written out from the opcode map (30_encoding.md R74, R75) -/

/-- Class 0; T22, T23: bits 11:4 are ignored. -/
theorem test_decode_class_0 :
    decodeWord 0x00E0 = .ok .cls ∧ decodeWord 0x0000 = .ok .cls ∧ decodeWord 0x0120 = .ok .cls ∧
    decodeWord 0x00EE = .ok .ret ∧ decodeWord 0x0ABE = .ok .ret := by decide

theorem test_decode_addresses :
    decodeWord 0x1234 = .ok (.jp 0x234) ∧ decodeWord 0x2300 = .ok (.call 0x300) ∧
    decodeWord 0xA123 = .ok (.ldI 0x123) ∧ decodeWord 0xBFFF = .ok (.jpV0 0xFFF) := by decide

theorem test_decode_immediates :
    decodeWord 0x332A = .ok (.seImm 3 0x2A) ∧ decodeWord 0x432A = .ok (.sneImm 3 0x2A) ∧
    decodeWord 0x6A2A = .ok (.ldImm 10 0x2A) ∧ decodeWord 0x7120 = .ok (.addImm 1 0x20) ∧
    decodeWord 0xC30F = .ok (.rnd 3 0x0F) := by decide

/-- T24, T25: the low nibble is ignored. -/
theorem test_decode_register_skips :
    decodeWord 0x5120 = .ok (.seReg 1 2) ∧ decodeWord 0x512F = .ok (.seReg 1 2) ∧
    decodeWord 0x9120 = .ok (.sneReg 1 2) ∧ decodeWord 0x9125 = .ok (.sneReg 1 2) := by decide

/-- T26: the shifts ignore `Y`. -/
theorem test_decode_class_8 :
    decodeWord 0x8120 = .ok (.ldReg 1 2) ∧ decodeWord 0x8121 = .ok (.or 1 2) ∧ decodeWord 0x8122 = .ok (.and 1 2) ∧
    decodeWord 0x8123 = .ok (.xor 1 2) ∧ decodeWord 0x8014 = .ok (.addReg 0 1) ∧
    decodeWord 0x8015 = .ok (.sub 0 1) ∧ decodeWord 0x8106 = .ok (.shr 1) ∧ decodeWord 0x8127 = .ok (.subn 1 2) ∧
    decodeWord 0x812E = .ok (.shl 1) := by decide

theorem test_decode_draw_and_keys :
    decodeWord 0xD125 = .ok (.drw 1 2 5) ∧ decodeWord 0xE49E = .ok (.skp 4) ∧ decodeWord 0xE4A1 = .ok (.sknp 4) := by
  decide

theorem test_decode_class_F :
    decodeWord 0xF507 = .ok (.ldFromDt 5) ∧ decodeWord 0xF30A = .ok (.ldKey 3) ∧
    decodeWord 0xF515 = .ok (.ldToDt 5) ∧ decodeWord 0xF218 = .ok (.ldSt 2) ∧ decodeWord 0xF21E = .ok (.addI 2) ∧
    decodeWord 0xFA29 = .ok (.ldFont 10) ∧ decodeWord 0xF333 = .ok (.ldBcd 3) ∧ decodeWord 0xF255 = .ok (.dump 2) ∧
    decodeWord 0xF265 = .ok (.load 2) := by decide

/-- T1: the first byte is the high byte; one byte is no instruction. -/
theorem test_decode_is_big_endian :
    decodeBytes [0x12, 0x34] = .ok (.jp 0x234) ∧ decodeBytes [0x34] = .error .truncated := by decide

theorem test_decode_table_word :
    decodeTableWord 16 0x6A2A = some (.ldImm 10 0x2A) ∧ decodeTableWord 16 0x8128 = none := by decide

/-! ### The checks refuse (30_encoding.md R76; T13 to T21) -/

theorem test_refuses_class_0 :
    wellFormedWord 0x0001 = false ∧ wellFormedWord 0x00EF = false ∧ decodeWord 0x0001 = .error (.class0 0x1) := by
  decide

theorem test_refuses_class_8 :
    wellFormedWord 0x8128 = false ∧ wellFormedWord 0x812F = false ∧ decodeWord 0x812F = .error (.class8 0xF) := by
  decide

theorem test_refuses_class_E :
    wellFormedWord 0xE000 = false ∧ wellFormedWord 0xE19F = false ∧ decodeWord 0xE19F = .error (.classE 0x9F) := by
  decide

theorem test_refuses_class_F :
    wellFormedWord 0xF000 = false ∧ wellFormedWord 0xF090 = false ∧ decodeWord 0xF175 = .error (.classF 0x75) := by
  decide

/-- T141, T142: 3584 bytes fit, 3585 do not. -/
theorem test_program_fits :
    programFits (List.replicate 3584 0x00) = true ∧ programFits (List.replicate 3585 0x00) = false := by
  simp only [programFits, List.length_replicate]; decide


/-- A key byte above `0x0F` is not promised (70_reset_and_hazards.md R203). -/
theorem test_key_promised : keyPromised 0x0F = true ∧ keyPromised 0x41 = false := by decide

/-- An image not rising, one that lists a byte at its reset contents, one that lists an address outside. -/
theorem test_memory_form_refused :
    [[(5, 0x00), (4, 0x00)], [(0x300, 0x00)], [(4096, 0x01)]].map (Memory.wf Config.defaults.font) = [false, false, false] := by
  decide

/-! ### Control transfer -/

/-- T31. -/
theorem test_ret :
    after 0x0ABE { State.reset with pc := 0x300, stack := [0x0202, 0x0456] } (fun t => (t.pc, t.stack)) =
      some (0x0202, [0x0456]) := by decide

/-- T32. -/
theorem test_ret_underflow :
    after 0x00EE State.reset (fun t => (t.fsm, t.faultCause, t.pc, t.lastInstr)) =
      some (.faulted, .stackUnderflow, 0x0202, 0x00EE) := by decide

/-- T35. -/
theorem test_jp : after 0x1FFF State.reset (fun t => (t.pc, t.fsm)) = some (0x0FFF, .running) := by decide

/-- T39. -/
theorem test_call :
    after 0x2ABC { State.reset with pc := 0xFFE } (fun t => (t.pc, t.stack)) = some (0x0ABC, [0x1000]) := by decide

/-- T37, and a full stack of the machine with `STACK_DEPTH` = 1. -/
theorem test_call_overflow :
    after 0x2300 (State.setStack State.reset (List.replicate 16 0x0456))
      (fun t => (t.fsm, t.faultCause, t.pc, t.stack.length)) = some (.faulted, .stackOverflow, 0x0202, 16) ∧
    after 0x2300 (State.setStack (State.launch { Config.defaults with stackDepth := 1 }) [0x0456])
      (fun t => (t.fsm, t.faultCause)) = some (.faulted, .stackOverflow) := by decide

/-- T40. -/
theorem test_se_imm : after 0x332A (withRegs [(3, 0x2A)] State.reset) (fun t => t.pc) = some 0x0204 := by decide

/-- T41. -/
theorem test_se_imm_not : after 0x332A (withRegs [(3, 0x2B)] State.reset) (fun t => t.pc) = some 0x0202 := by decide

/-- T42. -/
theorem test_sne_imm : after 0x432A (withRegs [(3, 0x2A)] State.reset) (fun t => t.pc) = some 0x0202 := by decide

/-- T43. -/
theorem test_sne_imm_skips : after 0x432A State.reset (fun t => t.pc) = some 0x0204 := by decide

/-- T44. -/
theorem test_se_reg :
    after 0x5120 (withRegs [(1, 0x07), (2, 0x07)] State.reset) (fun t => t.pc) = some 0x0204 := by decide

/-- T45. -/
theorem test_se_reg_not :
    after 0x5120 (withRegs [(1, 0x07), (2, 0x08)] State.reset) (fun t => t.pc) = some 0x0202 := by decide

/-- T47. -/
theorem test_sne_reg :
    after 0x9120 (withRegs [(1, 0x07), (2, 0x08)] State.reset) (fun t => t.pc) = some 0x0204 := by decide

/-- T48. -/
theorem test_sne_reg_not :
    after 0x9125 (withRegs [(1, 0x07), (2, 0x07)] State.reset) (fun t => t.pc) = some 0x0202 := by decide

/-- T52: the register is `V0`, not `V1`. -/
theorem test_jp_v0 :
    after 0xB100 (withRegs [(1, 0x09), (0, 0x02)] State.reset) (fun t => t.pc) = some 0x0102 := by decide

/-- T51. -/
theorem test_jp_v0_no_wrap :
    after 0xBFFF (withRegs [(0, 0xFF)] State.reset) (fun t => (t.pc, t.fsm)) = some (0x10FE, .running) := by decide

/-! ### Loads, arithmetic, logic, shifts -/

/-- T60. -/
theorem test_ld_imm : after 0x6A2A State.reset (fun t => (t.reg 10, t.reg 2)) = some (0x2A, 0x00) := by decide

/-- T62. -/
theorem test_add_imm :
    after 0x7101 (withRegs [(1, 0xFF), (15, 0x07)] State.reset) (fun t => (t.reg 1, t.reg VF)) =
      some (0x00, 0x07) := by decide

/-- T63. -/
theorem test_ld_reg :
    after 0x8120 (withRegs [(2, 0x55)] State.reset) (fun t => (t.reg 1, t.reg 2)) = some (0x55, 0x55) := by decide

/-- T64. -/
theorem test_or :
    after 0x8121 (withRegs [(1, 0xF0), (2, 0x0F), (15, 0x07)] State.reset) (fun t => (t.reg 1, t.reg VF)) =
      some (0xFF, 0x07) := by decide

/-- T65. -/
theorem test_and :
    after 0x8122 (withRegs [(1, 0xF3), (2, 0x3F), (15, 0x07)] State.reset) (fun t => (t.reg 1, t.reg VF)) =
      some (0x33, 0x07) := by decide

/-- T66. -/
theorem test_xor :
    after 0x8123 (withRegs [(1, 0xFF), (2, 0x0F), (15, 0x07)] State.reset) (fun t => (t.reg 1, t.reg VF)) =
      some (0xF0, 0x07) := by decide

/-- W2, T68: the document's own vector. -/
theorem test_add_carry :
    after 0x8014 (withRegs [(0, 0xFF), (1, 0x01)] State.reset) (fun t => (t.reg 0, t.reg VF)) =
      some (0x00, 0x01) := by decide

/-- T82: the flag first, then the sum of the new `VF`. -/
theorem test_add_with_vf :
    after 0x8F14 (withRegs [(15, 0xFF), (1, 0x02)] State.reset) (fun t => t.reg VF) = some 0x03 := by decide

/-- W3, T69c: 1 when a borrow occurs. -/
theorem test_sub_borrow :
    after 0x8015 (withRegs [(0, 0x01), (1, 0x02)] State.reset) (fun t => (t.reg 0, t.reg VF)) =
      some (0xFF, 0x01) := by decide

/-- T86. -/
theorem test_sub_with_vf :
    after 0x80F5 (withRegs [(0, 0x00), (15, 0x03)] State.reset) (fun t => (t.reg 0, t.reg VF)) =
      some (0xFF, 0x01) := by decide

/-- T69i: `Y` is not read. -/
theorem test_shr :
    after 0x8126 (withRegs [(1, 0x05), (2, 0xFF)] State.reset) (fun t => (t.reg 1, t.reg VF, t.reg 2)) =
      some (0x02, 0x01, 0xFF) := by decide

/-- T69j. -/
theorem test_subn :
    after 0x8127 (withRegs [(1, 0x02), (2, 0x01)] State.reset) (fun t => (t.reg 1, t.reg VF)) =
      some (0xFF, 0x01) := by decide

/-- T92. -/
theorem test_subn_with_vf :
    after 0x81F7 (withRegs [(1, 0x05), (15, 0x03)] State.reset) (fun t => (t.reg 1, t.reg VF)) =
      some (0xFC, 0x01) := by decide

/-- T69n: `VF` is `V[X] >> 3`. -/
theorem test_shl :
    after 0x810E (withRegs [(1, 0xFF)] State.reset) (fun t => (t.reg 1, t.reg VF)) = some (0xFE, 0x1F) := by decide

/-- T96. -/
theorem test_shl_of_vf : after 0x8F0E (withRegs [(15, 0xFF)] State.reset) (fun t => t.reg VF) = some 0x3E := by decide

/-- T69s. -/
theorem test_ld_i : after 0xA000 { State.reset with I := 0xFFFF } (fun t => t.I) = some 0x0000 := by decide

/-- T69t. -/
theorem test_rnd : after 0xC30F State.reset (fun t => t.reg 3) 0x00 0xA7 = some 0x07 := by decide

/-! ### Display -/

/-- T79b. -/
theorem test_cls :
    after 0x00E0 ((withRegs [(15, 0x05)] State.reset).setPixel 63 31 true) (fun t => (t.pixel 63 31, t.reg VF)) =
      some (false, 0x05) := by decide

/-- T72. -/
theorem test_drw_wraps :
    after 0xD121 { withBytes 0x300 [0xFF] (withRegs [(1, 0x3F)] State.reset) with I := 0x300 }
      (fun t => ([t.pixel 62 0, t.pixel 63 0, t.pixel 0 0, t.pixel 6 0, t.pixel 7 0], t.reg VF)) =
      some ([false, true, true, true, false], 0x00) := by decide

/-- T71. -/
theorem test_drw_collides :
    after 0xD121 { withBytes 0x300 [0xC0] ((withRegs [(1, 0x02), (2, 0x03)] State.reset).setPixel 3 3 true) with I := 0x300 }
      (fun t => (t.pixel 2 3, t.pixel 3 3, t.reg VF)) =
      some (true, false, 0x01) := by decide

/-! ### Keys, timer, address register, image -/

/-- T104. -/
theorem test_skp : after 0xE49E (withRegs [(4, 0x05)] State.reset) (fun t => t.pc) 0x05 0x00 = some 0x0204 := by decide

/-- T105. -/
theorem test_skp_not : after 0xE49E (withRegs [(4, 0x05)] State.reset) (fun t => t.pc) = some 0x0202 := by decide

/-- T108. -/
theorem test_sknp : after 0xE4A1 (withRegs [(4, 0x05)] State.reset) (fun t => t.pc) 0x05 0x00 = some 0x0202 := by decide

/-- T107. -/
theorem test_sknp_skips : after 0xE4A1 (withRegs [(4, 0x05)] State.reset) (fun t => t.pc) = some 0x0204 := by decide

/-- T110. -/
theorem test_ld_from_dt :
    after 0xF507 { State.reset with dt := 0x3C } (fun t => (t.reg 5, t.dt)) = some (0x3C, 0x3C) := by decide

/-- T100, T101: the key of this `Tick` is not looked at. -/
theorem test_ld_key :
    after 0xF30A State.reset (fun t => (t.fsm, t.waitReg, t.pc, t.reg 3)) 0x05 0x00 =
      some (.awaitingKey, 3, 0x0202, 0x00) := by decide

/-- T103. -/
theorem test_key_ends_the_wait :
    seen (State.tick { State.reset with fsm := .awaitingKey, waitReg := 3 } 0x41 0x00) (fun t => (t.reg 3, t.fsm, t.pc)) =
      some (0x41, .running, 0x0200) := by decide

/-- T111. -/
theorem test_ld_to_dt : after 0xF515 (withRegs [(5, 0x3C)] State.reset) (fun t => t.dt) = some 0x3C := by decide

/-- T112. -/
theorem test_ld_st :
    after 0xF218 { withRegs [(2, 0x55)] State.reset with dt := 0x09 } (fun t => (t.reg 2, t.dt, t.pc)) =
      some (0x55, 0x09, 0x0202) := by decide

/-- T116. -/
theorem test_add_i :
    after 0xF21E { withRegs [(2, 0xFF), (15, 0x07)] State.reset with I := 0xFFF0 } (fun t => (t.I, t.reg VF)) =
      some (0x00EF, 0x07) := by decide

/-- T118: the byte the document itself gives. -/
theorem test_ld_font : after 0xFA29 State.reset (fun t => t.I) = some 0x00F0 := by decide

/-- T121; and R167 with `FX29_OPERAND` = `register`: `F129` with `V1` = 2 reads the byte at 10, the first of glyph 2. -/
theorem test_ld_font_reads_the_image :
    after 0xF029 (withBytes 0 [0x77] (withRegs [(0, 0x03)] State.reset)) State.I = some 0x0077 ∧
    after 0xF129 (withRegs [(1, 0x02)] (State.launch { Config.defaults with fx29Operand := .register })) State.I =
      some 0x00F0 := by decide

/-- T122. -/
theorem test_ld_bcd :
    after 0xF333 { withBytes 0x400 [0xAA, 0xBB] (withRegs [(3, 0xEA)] State.reset) with I := 0x400 }
      (fun t => (t.readMem 0x400, t.readMem 0x401)) =
      some (0x04, 0xBB) := by decide

/-- T126. -/
theorem test_ld_bcd_faults :
    after 0xF333 { State.reset with I := 0x1000 } (fun t => (t.fsm, t.faultCause)) =
      some (.faulted, .memWriteOutOfBounds) := by decide

/-- T127. -/
theorem test_dump :
    after 0xF255 { withRegs [(0, 0x11), (1, 0x22), (2, 0x33)] State.reset with I := 0x500 }
      (fun t => ([t.readMem 0x500, t.readMem 0x501, t.readMem 0x502], t.I)) =
      some ([0x11, 0x22, 0x00], 0x500) := by decide

/-- T132. -/
theorem test_dump_faults :
    after 0xF255 { withRegs [(0, 0x11)] State.reset with I := 0xFFF }
      (fun t => (t.fsm, t.faultCause, t.readMem 0xFFF)) =
      some (.faulted, .memWriteOutOfBounds, 0x00) := by decide

/-- T133. -/
theorem test_load :
    after 0xF265 { withBytes 0x500 [0xAA, 0xBB, 0xCC] (withRegs [(2, 0x99)] State.reset) with I := 0x500 }
      (fun t => [t.reg 0, t.reg 1, t.reg 2]) =
      some [0xAA, 0xBB, 0x99] := by decide

/-- T135. -/
theorem test_load_faults :
    after 0xF265 { State.reset with I := 0xFFF } (fun t => (t.fsm, t.faultCause, t.reg 0)) =
      some (.faulted, .memReadOutOfBounds, 0x00) := by decide

/-! ### Events -/

/-- T15. -/
theorem test_illegal_word :
    after 0x8128 State.reset (fun t => (t.fsm, t.faultCause, t.pc, t.lastInstr)) =
      some (.faulted, .illegalInstruction, 0x0202, 0x8128) := by decide

/-- T6. -/
theorem test_fetch_out_of_bounds :
    seen (State.tick { State.reset with pc := 0xFFFF } 0x00 0x00) (fun t => (t.fsm, t.faultCause, t.pc)) =
      some (.faulted, .fetchOutOfBounds, 0xFFFF) := by decide

/-- T11, T12. -/
theorem test_timer_tick :
    (State.timerTick { State.reset with dt := 0xFF, fsm := .awaitingKey }).dt = 0xFE ∧ State.reset.timerTick.dt = 0x00 := by
  decide

/-- T144. -/
theorem test_load_program :
    seen (State.reset.loadProgram [0x12, 0x00, 0xFF]) (fun t => [t.readMem 0x200, t.readMem 0x201, t.readMem 0x202]) =
      some [0x12, 0x00, 0xFF] := by decide

/-- T7: with nothing loaded and nothing pending the first step fetches `0x0000`, which is `CLS`. -/
theorem test_first_step_without_a_program :
    seen (step State.reset) (fun t => (t.pc, t.lastInstr, t.fsm)) = some (0x0202, 0x0000, .running) := by decide

/-- T60, by a whole step. -/
theorem test_step_runs_the_stored_word :
    seen (step (State.reset.withFetchWord 16 0x6A2A)) (fun t => (t.reg 10, t.pc)) = some (0x2A, 0x0202) := by decide

/-- T142: a load of 3585 bytes is returned as an error, with the engine's state unchanged, and a `Reset` may follow. -/
theorem test_load_error :
    seen (State.reset.loadProgram (List.replicate 3585 0x01))
      (fun t => ((t.loadError, t.fsm, t.faultCause), (t.readMem 0x200, t.resetEngine.loadError))) =
      some ((true, .running, .none), (0x00, false)) := by
  simp only [State.loadProgram, programFits, List.length_replicate]; decide

/-- R52 with another `FONT`: a reset installs that font, and zeros above it. -/
theorem test_font_is_a_parameter :
    let s := (State.launch { Config.defaults with font := Vector.replicate 80 0x3C }).resetEngine
    (s.readMem 0, s.readMem 79, s.readMem 80) = (0x3C, 0x3C, 0x00) := by decide

/-- R36, R181: the codes the inspection read shows. -/
theorem test_inspection_codes :
    (State.inspect { State.reset with fsm := .faulted, faultCause := .memWriteOutOfBounds }).fsm = 2 ∧
    (State.inspect { State.reset with fsm := .faulted, faultCause := .memWriteOutOfBounds }).faultCause = 6 ∧
    (State.inspect { State.reset with fsm := .awaitingKey, waitReg := 3 }).waitReg = 3 := by decide

/-! ### Witnesses: a concrete input that meets all the hypotheses of each statement, clause by clause -/

/-- A state whose image holds some bytes from `pc` on. -/
def codeAt (pc : Word) (bs : List Byte) : State := { withBytes pc.toNat bs State.reset with pc := pc }

/-- A state whose stack holds `n` return addresses. -/
def stackOf (n : Nat) : State := { State.reset with stack := List.replicate n 0x0456 }

theorem witness_EncodeOfDecodeKeepsEveryReadBit : decodeWord 0x812E = .ok (.shl 1) := by decide

theorem witness_DecoderAcceptsExactlyTheTableRows : decodeWord 0x0ABE = .ok .ret := by decide

theorem witness_OpcodeRowsNeverOverlap :
    (⟨0xF00F, 0x000E⟩ : Row) ∈ opcodeRows ∧ Row.selects ⟨0xF00F, 0x000E⟩ 0x0ABE = true := by decide

/-- The last byte of the font, the first and the last byte above it. -/
theorem witness_ResetImageIsFontThenZero :
    State.reset.resetEngine.readMem (5 * 15 + 4) = 0x80 ∧ State.reset.resetEngine.readMem 80 = 0x00 ∧
    State.reset.resetEngine.readMem 4095 = 0x00 := by decide

theorem witness_ResetEventSetsEveryItem :
    State.pending { State.reset with fsm := .faulted, pending := [.reset, .timerTick] } = .reset :: [.timerTick] := rfl

/-- The longest program that fits, the shortest that does not, and a closed window. -/
theorem witness_LoadProgramCopiesOrIsRejected :
    State.reset.MemCanonical ∧ State.reset.loadWindow = true ∧ (List.replicate 3584 (0x01 : Byte)).length ≤ 3584 ∧
    3584 < (List.replicate 3585 (0x01 : Byte)).length ∧ State.reset.closeLoadWindow.MemCanonical ∧
    State.reset.closeLoadWindow.loadWindow = false := by
  exact ⟨rfl, rfl, by rw [List.length_replicate], by rw [List.length_replicate]; decide, rfl, rfl⟩

theorem witness_StepPerformsTheOldestEvent :
    State.pending { State.reset with pending := [.timerTick, .reset] } = .timerTick :: [.reset] ∧
    State.reset.pending = [] := ⟨rfl, rfl⟩

/-- The last address that can be fetched from. -/
theorem witness_StepRunsTheDecodedInstruction :
    (codeAt 0xFFE [0x60, 0x01]).fsm = .running ∧ (codeAt 0xFFE [0x60, 0x01]).pc.toNat ≤ 4094 ∧
    (0x6001 : Word).toNat = ((codeAt 0xFFE [0x60, 0x01]).readMem 4094).toNat * 256 +
      ((codeAt 0xFFE [0x60, 0x01]).readMem 4095).toNat ∧
    decodeWord 0x6001 = .ok (.ldImm 0 0x01) ∧ (codeAt 0xFFE [0x60, 0x01]).pending = [] ∧
    State.pending { codeAt 0xFFE [0x60, 0x01] with pending := [.tick 0x05 0xA7] } = .tick 0x05 0xA7 :: [] := by decide

theorem witness_FetchPastTheImageFaults :
    (codeAt 0xFFF []).fsm = .running ∧ (codeAt 0xFFF []).pc.toNat ≥ 4095 ∧ (codeAt 0xFFFF []).pc.toNat ≥ 4095 := by
  decide

theorem witness_WordOfNoRowFaults :
    (codeAt 0xFFE [0x81, 0x28]).fsm = .running ∧ (codeAt 0xFFE [0x81, 0x28]).pc.toNat ≤ 4094 ∧
    (0x8128 : Word).toNat = ((codeAt 0xFFE [0x81, 0x28]).readMem 4094).toNat * 256 +
      ((codeAt 0xFFE [0x81, 0x28]).readMem 4095).toNat ∧ wellFormedWord 0x8128 = false := by decide

theorem witness_AwaitingKeyEndsOnNonzeroKeyOnly :
    State.fsm { State.reset with fsm := .awaitingKey } = .awaitingKey ∧ (0x01 : Byte) ≠ 0x00 := by decide

theorem witness_FaultedIsLeftByResetAlone :
    State.fsm { State.reset with fsm := .faulted, loadWindow := false } = .faulted ∧
    State.loadWindow { State.reset with fsm := .faulted, loadWindow := false } = false ∧
    (∀ rest, State.pending { State.reset with fsm := .faulted, loadWindow := false } ≠ .reset :: rest) ∧
    ∃ t, step { State.reset with fsm := .faulted, loadWindow := false } = .next t :=
  ⟨rfl, rfl, (fun _ h => nomatch h), _, rfl⟩

theorem witness_TimerTicksCountDownToZero :
    State.fsm { State.reset with fsm := .awaitingKey, dt := 0x01 } ≠ .faulted := by decide

theorem witness_TickBeforeTimerTickOfOneCycle :
    State.reset.pending = [] ∧
    ∃ t, State.perform { State.reset with pending := [.timerTick] } (.tick 0x00 0x00) = .next t := ⟨rfl, _, rfl⟩

/-- The last pixel. -/
theorem witness_ObservationShowsTheState :
    (2047 : Fin 2048).val = (31 : Fin 32).val * 64 + (63 : Fin 64).val := by decide

/-- Plain operands, and each place of `VF`. -/
theorem witness_AddSetsCarry : (0 : Reg) ≠ VF ∧ (14 : Reg) ≠ VF ∧ (15 : Reg) = VF := by decide

theorem witness_SubSetsBorrow : (0 : Reg) ≠ VF ∧ (14 : Reg) ≠ VF ∧ (15 : Reg) = VF := by decide

theorem witness_SubnSetsBorrow : (0 : Reg) ≠ VF ∧ (14 : Reg) ≠ VF ∧ (15 : Reg) = VF := by decide

theorem witness_ShiftsSetTheirFlags : (14 : Reg) ≠ VF ∧ (15 : Reg) = VF := by decide

/-- The first target that cannot be fetched from. -/
theorem witness_JumpsSetThePc :
    (∃ t, exec (.jp 0xFFF) State.reset = .next t ∧ t.pc.toNat > 4094) ∧
    ∃ t, exec (.jpV0 0xFFF) State.reset = .next t ∧ t.pc.toNat > 4094 :=
  ⟨⟨_, rfl, by decide⟩, _, rfl, by decide⟩

/-- The last call that has room, and the first that has not. -/
theorem witness_CallPushesOrOverflows :
    (stackOf 15).stack.length < (stackOf 15).params.stackDepth ∧
    (stackOf 16).params.stackDepth ≤ (stackOf 16).stack.length := by decide

theorem witness_ReturnPopsOrUnderflows : (stackOf 1).stack = 0x0456 :: [] ∧ (stackOf 0).stack = [] := by decide

/-- A call in the last two bytes of the image, of a return in the two before them. -/
theorem witness_CallThenReturnComesBack :
    let s := codeAt 0xFFE (([0x2F, 0xFC] : List Byte))
    let s := withBytes 0xFFC [0x0A, 0xBE] s
    s.fsm = .running ∧ s.pc.toNat ≤ 4094 ∧ s.readMem s.pc.toNat = highByte (encode (.call 0xFFC)) ∧
    s.readMem (s.pc.toNat + 1) = lowByte (encode (.call 0xFFC)) ∧ (0xFFC : Addr).toNat ≤ 4094 ∧
    (0x0ABE : Word).toNat = (s.readMem 0xFFC).toNat * 256 + (s.readMem 0xFFD).toNat ∧
    decodeWord 0x0ABE = .ok .ret ∧ s.stack.length < s.params.stackDepth := by decide

theorem witness_SetThenSkipAlwaysSkips :
    let s := codeAt 0xFFC [0x6F, 0x07, 0x3F, 0x07]
    s.fsm = .running ∧ s.pc.toNat + 3 ≤ 4095 ∧ s.readMem s.pc.toNat = highByte (encode (.ldImm 15 0x07)) ∧
    s.readMem (s.pc.toNat + 1) = lowByte (encode (.ldImm 15 0x07)) ∧
    s.readMem (s.pc.toNat + 2) = highByte (encode (.seImm 15 0x07)) ∧
    s.readMem (s.pc.toNat + 3) = lowByte (encode (.seImm 15 0x07)) := by decide

theorem witness_SelfJumpIsQuiescent :
    let s := { codeAt 0xFFE [0x1F, 0xFE] with lastInstr := 0x1FFE }
    s.fsm = .running ∧ s.pc.toNat = (0xFFE : Addr).toNat ∧ (0xFFE : Addr).toNat ≤ 4094 ∧
    s.readMem (0xFFE : Addr).toNat = highByte (encode (.jp 0xFFE)) ∧
    s.readMem ((0xFFE : Addr).toNat + 1) = lowByte (encode (.jp 0xFFE)) ∧ s.lastInstr = encode (.jp 0xFFE) := by decide

/-- One word before the end, and the end itself. -/
theorem witness_ZeroFilledMemoryRunsClsToTheEnd :
    (codeAt 0xFFE []).fsm = .running ∧ (codeAt 0xFFE []).pending = [] ∧ (codeAt 0xFFE []).pc.toNat + 2 * 1 = 4096 ∧
    (∀ a, (codeAt 0xFFE []).pc.toNat ≤ a → a ≤ 4095 → (codeAt 0xFFE []).readMem a = 0x00) ∧
    (codeAt 0x1000 []).pc.toNat + 2 * 0 = 4096 := by
  refine ⟨rfl, rfl, rfl, fun a h h' => ?_, rfl⟩
  have h4094 : 4094 ≤ a := h
  obtain rfl | rfl : a = 4094 ∨ a = 4095 := by omega
  · decide
  · decide

/-- The longest sprite that ends at the last byte; no row at any `I`; a collision; no lit pixel. -/
theorem witness_DrawIsThePixelwiseXorOfTheSprite :
    State.indexed { State.reset with I := 0xFF1 } ((0xF : Nibble).toNat - 1) ≤ 4095 ∧ (0x0 : Nibble).toNat = 0 ∧
    (∃ cx cy, (State.reset.setPixel 3 0 true).pixel cx cy = true ∧
      (State.reset.setPixel 3 0 true).spriteAt ((State.reset.setPixel 3 0 true).origin 1)
        ((State.reset.setPixel 3 0 true).origin 2) 1 cx cy = true) ∧
    ∀ cx cy, State.reset.pixel cx cy = true →
      State.reset.spriteAt (State.reset.origin 1) (State.reset.origin 2) 1 cx cy = false :=
  ⟨by decide, by decide, ⟨3, 0, by decide, by decide⟩,
    fun cx cy h => absurd h (by rw [show State.reset.pixel cx cy = false from Display.get_blank cx cy]; decide)⟩

theorem witness_DrawTwiceRestoresTheDisplay :
    State.indexed { State.reset with I := 0xFF1 } ((0xF : Nibble).toNat - 1) ≤ 4095 ∧ (0x0 : Nibble).toNat = 0 := by
  decide

theorem witness_KeyWaitRemembersTheRegister : (0xFF : Byte) ≠ 0x00 := by decide

/-- A machine of each of the two readings. -/
theorem witness_FontPointerReadsThroughTheImage :
    State.reset.params.fx29Operand = .field ∧
    (State.launch { Config.defaults with fx29Operand := .register }).params.fx29Operand = .register := ⟨rfl, rfl⟩

theorem witness_BcdLeavesTheOnesDigitAtI :
    State.MemCanonical { State.reset with I := 0xFFF } ∧ State.indexed { State.reset with I := 0xFFF } 0 ≤ 4095 :=
  ⟨rfl, by decide⟩

/-- All registers but `VF` up to the last byte, and no register at an `I` above the image. -/
theorem witness_DumpStoresTheRegistersBelowX :
    State.MemCanonical { State.reset with I := 0xFF1 } ∧
    State.indexed { State.reset with I := 0xFF1 } ((15 : Reg).val - 1) ≤ 4095 ∧
    State.MemCanonical { State.reset with I := 0xFFFF } ∧ (0 : Reg).val = 0 := ⟨rfl, by decide, rfl, rfl⟩

theorem witness_LoadFillsTheRegistersBelowX :
    State.indexed { State.reset with I := 0xFF1 } ((15 : Reg).val - 1) ≤ 4095 ∧ (0 : Reg).val = 0 := by decide

/-- One byte too far, for each of the four. -/
theorem witness_AccessPastTheImageFaults :
    State.indexed { State.reset with I := 0x1000 } 0 > 4095 ∧ 0 < (15 : Reg).val ∧
    State.indexed { State.reset with I := 0xFF2 } ((15 : Reg).val - 1) > 4095 ∧ 0 < (0xF : Nibble).toNat ∧
    State.indexed { State.reset with I := 0xFF2 } ((0xF : Nibble).toNat - 1) > 4095 := by decide

theorem witness_DumpThenLoadRestoresTheRegisters :
    let s := { withRegs [(0, 0x11)] State.reset with I := 0xFFF }
    s.MemCanonical ∧ s.indexed ((1 : Reg).val - 1) ≤ 4095 ∧
    ∃ t, exec (.dump 1) s = .next t ∧ (t.setReg 0 0x00).mem = t.mem ∧ (t.setReg 0 0x00).params = t.params ∧
      (t.setReg 0 0x00).I = t.I :=
  ⟨rfl, by decide, _, rfl, rfl, rfl, rfl⟩

/-- A word stored in the last two bytes and fetched from there. -/
theorem witness_StoredBytesAreFetched :
    let s := { withRegs [(0, 0x63), (1, 0x2A)] State.reset with I := 0xFFE }
    s.MemCanonical ∧ 2 ≤ (2 : Reg).val ∧ s.indexed ((2 : Reg).val - 1) ≤ 4095 ∧
    ∃ t, exec (.dump 2) s = .next t ∧ (t.setPc s.I).mem = t.mem ∧
      (t.setPc s.I).params = t.params ∧ (t.setPc s.I).pc = s.I :=
  ⟨rfl, by decide, by decide, _, rfl, rfl, rfl, rfl⟩

theorem witness_CanonicalImagesThatReadAlikeAreEqual :
    let font := Config.defaults.font
    Memory.wf font [(0, 0x77), (4095, 0x01)] = true ∧
    Memory.wf font (Memory.writeBytes font (Memory.write font [] 4095 0x01) 0 [0x77]) = true ∧
    ∀ a, Memory.read font [(0, 0x77), (4095, 0x01)] a =
      Memory.read font (Memory.writeBytes font (Memory.write font [] 4095 0x01) 0 [0x77]) a :=
  ⟨by decide, by decide, fun _ => rfl⟩

/-- A load that comes late, and one that does not. -/
theorem witness_StepStopsOnlyAtALateLoad :
    step { State.reset with pending := [.loadProgram [0x12]], loadWindow := false } = .refused .loadAfterFirstTick ∧
    ∃ t, step { State.reset with pending := [.loadProgram [0x12]] } = .next t := ⟨rfl, _, rfl⟩

/-- A live state and an instruction that completes, and one for each cause an instruction can raise. -/
theorem witness_InstructionsFaultExactlyByTheTable :
    State.reset.Live ∧ (∃ t, exec .cls State.reset = .next t ∧ t.fsm = .running) ∧
    (∃ t, exec .ret State.reset = .next t ∧ t.fsm = .faulted ∧ t.faultCause = .stackUnderflow) ∧
    (stackOf 16).Live ∧
    (∃ t, exec (.call 0x300) (stackOf 16) = .next t ∧ t.fsm = .faulted ∧ t.faultCause = .stackOverflow) ∧
    (State.reset.setI 0x1000).Live ∧
    (∃ t, exec (.load 1) (State.reset.setI 0x1000) = .next t ∧ t.fsm = .faulted ∧
      t.faultCause = .memReadOutOfBounds) ∧
    ∃ t, exec (.ldBcd 1) (State.reset.setI 0x1000) = .next t ∧ t.fsm = .faulted ∧
      t.faultCause = .memWriteOutOfBounds :=
  ⟨(fun h => nomatch h), ⟨_, rfl, rfl⟩, ⟨_, rfl, rfl, rfl⟩, (fun h => nomatch h), ⟨_, rfl, rfl, rfl⟩,
    (fun h => nomatch h), ⟨_, rfl, rfl, rfl⟩, _, rfl, rfl, rfl⟩

/-- An instruction that writes the part, for each part. -/
theorem witness_EachPartIsWrittenByItsInstructionsAlone :
    (∃ t, exec .cls (State.reset.setPixel 3 0 true) = .next t ∧ t.px ≠ (State.reset.setPixel 3 0 true).px) ∧
    (∃ t, exec (.call 0x300) State.reset = .next t ∧ t.stack ≠ State.reset.stack ∧ t.pc ≠ State.reset.pc) ∧
    (∃ t, exec (.ldBcd 0) State.reset = .next t ∧ t.mem ≠ State.reset.mem) ∧
    (∃ t, exec (.ldI 0x300) State.reset = .next t ∧ t.I ≠ State.reset.I) ∧
    (∃ t, exec (.ldToDt 0) (State.reset.setReg 0 0x3C) = .next t ∧ t.dt ≠ (State.reset.setReg 0 0x3C).dt) ∧
    (∃ t, exec (.ldKey 3) State.reset = .next t ∧ t.waitReg ≠ State.reset.waitReg ∧ t.fsm ≠ State.reset.fsm) ∧
    (∃ t, exec .ret State.reset = .next t ∧ t.fsm ≠ State.reset.fsm ∧ t.faultCause ≠ State.reset.faultCause) ∧
    ∃ t, exec (.load 3) State.reset = .next t ∧ t.reg 2 ≠ State.reset.reg 2 :=
  ⟨⟨_, rfl, by decide⟩, ⟨_, rfl, by decide, by decide⟩, ⟨_, rfl, by decide⟩, ⟨_, rfl, by decide⟩,
    ⟨_, rfl, by decide⟩, ⟨_, rfl, by decide, by decide⟩, ⟨_, rfl, by decide, by decide⟩, _, rfl, by decide⟩

theorem witness_VfIsWrittenByTheFlagInstructions :
    ∃ t, exec (.shl 1) (State.reset.setReg 1 0xFF) = .next t ∧ t.reg VF ≠ (State.reset.setReg 1 0xFF).reg VF :=
  ⟨_, rfl, by decide⟩

theorem witness_InputsAreReadByTheirInstructionsAlone :
    (∃ t, exec (.ldKey 3) State.reset = .next t) ∧ (∀ x, Instr.ldKey 3 ≠ .skp x ∧ Instr.ldKey 3 ≠ .sknp x) ∧
    ∀ x nn, Instr.ldKey 3 ≠ .rnd x nn :=
  ⟨⟨_, rfl⟩, (fun _ => ⟨(fun h => nomatch h), (fun h => nomatch h)⟩), (fun _ _ h => nomatch h)⟩

/-- A step that stores a byte. -/
theorem witness_EveryStepKeepsTheImageCanonical :
    (codeAt 0x200 [0xF0, 0x33]).MemCanonical ∧
    seen (step (codeAt 0x200 [0xF0, 0x33])) (fun t => t.readMem 0) = some 0x00 :=
  ⟨rfl, by decide⟩

/-- A step that takes a stack fault at the full depth. -/
theorem witness_EveryStepKeepsTheControlState :
    (stackOf 16).ControlOk ∧
    seen (step ((stackOf 16).withFetchWord 16 0x2300)) State.faultCause = some .stackOverflow :=
  ⟨⟨by decide, by decide, by decide⟩, by decide⟩

/-- A return address on the stack, and the jump that reaches the bound. -/
theorem witness_EveryStepKeepsPcAndReturnAddressesBounded :
    (stackOf 1).AddressesOk ∧ seen (step ((stackOf 1).withFetchWord 16 0xBFFF)) State.pc = some 0x0FFF ∧
    ((codeAt 0x200 [0xBF, 0xFF]).setReg 0 0xFF).AddressesOk ∧
    seen (step ((codeAt 0x200 [0xBF, 0xFF]).setReg 0 0xFF)) State.pc = some 0x10FE := by
  refine ⟨⟨by decide, fun v hv => ?_⟩, by decide, ⟨by decide, fun v hv => nomatch hv⟩, by decide⟩
  rw [show v = 0x0456 from List.eq_of_mem_replicate hv]; decide

/-- A step that takes a fault. -/
theorem witness_EveryStepKeepsTheDiagnosisTrue :
    (codeAt 0x200 [0x00, 0xEE]).DiagnosisOk ∧
    seen (step (codeAt 0x200 [0x00, 0xEE])) State.faultCause = some .stackUnderflow :=
  ⟨⟨by decide, trivial⟩, by decide⟩

end Sys2Proof.Tests
end

section
/-! The image after `Reset` (20_memory.md R51 to R53). -/

namespace Sys2Proof.Machine

theorem Memory.background_of_lt {font : Font} {a : Nat} (h : a < 80) : Memory.background font a = font[a] := dif_pos h

theorem Memory.background_of_le {font : Font} {a : Nat} (h : 80 ≤ a) : Memory.background font a = 0x00 :=
  dif_neg h.not_gt

/-- `Reset` leaves no listed cell, so every address reads its reset contents. -/
@[simp] theorem State.readMem_resetEngine (s : State) (a : Nat) :
    s.resetEngine.readMem a = Memory.background s.params.font a := rfl

/-- Glyph A is the eleventh of the default font (R53). -/
theorem defaults_font_glyphA :
    (Config.defaults.font.toList.drop 50).take 5 = [0xF0, 0x90, 0xF0, 0x90, 0x90] := by decide

/-- Settles O7: after `Reset` an address reads its background, which is the font below 80 and zero from there on. -/
theorem resetImageIsFontThenZero : Obligations.ResetImageIsFontThenZero := by
  refine ⟨fun s => ⟨fun d r hd hr => ?font, fun a ha _ => ?zero⟩, defaults_font_glyphA⟩
  case font =>
    have hlt : 5 * d + r < 80 := by omega
    rw [State.readMem_resetEngine, Memory.background_of_lt hlt]
  case zero => rw [State.readMem_resetEngine, Memory.background_of_le ha]

end Sys2Proof.Machine
end

section
/-! The decoder's field extraction (40_engine.md R93). -/

namespace Sys2Proof

/-- The `k` bits of a word from bit `lo` up, as a number. -/
theorem toNat_bitSlice (w : Word) (lo k : Nat) : (w.extractLsb' lo k).toNat = w.toNat / 2 ^ lo % 2 ^ k := by
  rw [BitVec.extractLsb'_toNat, Nat.shiftRight_eq_div_pow]

theorem regOfNibble_val (b : Nibble) : (regOfNibble b).val = b.toNat := rfl

/-- Settles O1: each field is a slice of the word; the class, its top four bits, needs no reduction, since a word is
below `2 ^ 16`, and the three slices from bit 0 no shift. -/
theorem fieldsAreTheBitSlicesOfEveryWord : Obligations.FieldsAreTheBitSlicesOfEveryWord := by
  intro w
  simp only [fieldsOf, regOfNibble_val, toNat_bitSlice, pow_zero, Nat.div_one]
  have topNibble : w.toNat / 2 ^ 12 % 2 ^ 4 = w.toNat / 4096 := by have := w.isLt; omega
  exact ⟨topNibble, rfl, rfl, rfl, rfl, rfl⟩

end Sys2Proof
end

section
/-! The decoder on the words of an opcode-map row (30_encoding.md R73, R74): a row's mask fixes the class, and in the
classes that select by a function code the code too. -/

namespace Sys2Proof.Machine

/-- A field that lies under the mask is the row's own. -/
theorem bitSlice_of_and_eq {w mask value : Word} {lo k : Nat} (hw : w &&& mask = value)
    (hmask : mask.extractLsb' lo k = BitVec.allOnes k) : w.extractLsb' lo k = value.extractLsb' lo k := by
  rw [← hw, BitVec.extractLsb'_and, hmask, BitVec.and_allOnes]

/-- A row that is selected by its class: dispatch is checked on the fields with the row's class put in. -/
theorem denotes_of_class {mask value : Word} {i : Fields → Instr}
    (hmask : mask.extractLsb' 12 4 = BitVec.allOnes 4)
    (hi : ∀ f : Fields, dispatch { f with opClass := value.extractLsb' 12 4 } = .ok (i f)) :
    Denotes mask value i := by
  intro w hw
  have hclass : (fieldsOf w).opClass = value.extractLsb' 12 4 := bitSlice_of_and_eq hw hmask
  have hdispatch := hi (fieldsOf w)
  rwa [← hclass] at hdispatch

/-- A row that is selected by its class and the function code `NN`. -/
theorem denotes_of_class_nn {mask value : Word} {i : Fields → Instr}
    (hmask : mask.extractLsb' 12 4 = BitVec.allOnes 4) (hmask' : mask.extractLsb' 0 8 = BitVec.allOnes 8)
    (hi : ∀ f : Fields, dispatch { f with opClass := value.extractLsb' 12 4, nn := value.extractLsb' 0 8 } = .ok (i f)) :
    Denotes mask value i := by
  intro w hw
  have hclass : (fieldsOf w).opClass = value.extractLsb' 12 4 := bitSlice_of_and_eq hw hmask
  have hcode : (fieldsOf w).nn = value.extractLsb' 0 8 := bitSlice_of_and_eq hw hmask'
  have hdispatch := hi (fieldsOf w)
  rwa [← hclass, ← hcode] at hdispatch

end Sys2Proof.Machine
end

section
/-! The skips (41_flow.md R113 to R116, 44_key_timer_mem.md R160, R161). -/

namespace Sys2Proof.Machine

variable (s : State)

/-! ### What each skip answers -/

theorem exec_seImm (x : Reg) (nn : Byte) : exec (.seImm x nn) s = .next (s.skipIf (s.reg x == nn)) := rfl
theorem exec_sneImm (x : Reg) (nn : Byte) : exec (.sneImm x nn) s = .next (s.skipIf (s.reg x != nn)) := rfl
theorem exec_seReg (x y : Reg) : exec (.seReg x y) s = .next (s.skipIf (s.reg x == s.reg y)) := rfl
theorem exec_sneReg (x y : Reg) : exec (.sneReg x y) s = .next (s.skipIf (s.reg x != s.reg y)) := rfl
theorem exec_skp (x : Reg) : exec (.skp x) s = .next (s.skipIf (s.reg x == s.key)) := rfl
theorem exec_sknp (x : Reg) : exec (.sknp x) s = .next (s.skipIf (s.reg x != s.key)) := rfl

/-! ### The `pc` after a skip on two bytes -/

theorem State.skipIf_beq_pc (a b : Byte) : (s.skipIf (a == b)).pc = if a = b then s.pc + 2 else s.pc := by
  simp only [State.skipIf_pc, beq_iff_eq]

theorem State.skipIf_bne_pc (a b : Byte) : (s.skipIf (a != b)).pc = if a = b then s.pc else s.pc + 2 := by
  simp only [State.skipIf_pc, bne_iff_ne, ite_not]

variable {s}

/-- An instruction that answers a skip on equality. -/
theorem skips_of_exec_beq {i : Instr} {a b : Byte} (h : exec i s = .next (s.skipIf (a == b))) :
    ∃ t, exec i s = .next t ∧ t.pc = (if a = b then s.pc + 2 else s.pc) ∧ Frame [] [.pc] s t :=
  ⟨_, h, s.skipIf_beq_pc a b, s.skipIf_frame _⟩

/-- An instruction that answers a skip on difference. -/
theorem skips_of_exec_bne {i : Instr} {a b : Byte} (h : exec i s = .next (s.skipIf (a != b))) :
    ∃ t, exec i s = .next t ∧ t.pc = (if a = b then s.pc else s.pc + 2) ∧ Frame [] [.pc] s t :=
  ⟨_, h, s.skipIf_bne_pc a b, s.skipIf_frame _⟩

end Sys2Proof.Machine
end

section
/-! The six skips as the opcode map's rows have them. -/

namespace Sys2Proof.Machine

/-- Settles O31: the two key skips are selected by class and `NN`, the other four by class alone; each is one conditional
skip, on equality or on difference. -/
theorem skipsAddTwoWhenTheConditionHolds : Obligations.SkipsAddTwoWhenTheConditionHolds := by
  refine ⟨?seImm, ?sneImm, ?seReg, ?sneReg, ?skp, ?sknp, fun x y nn s => ?effects⟩
  case seImm | sneImm | seReg | sneReg => exact denotes_of_class (by decide) fun _ => rfl
  case skp | sknp => exact denotes_of_class_nn (by decide) (by decide) fun _ => rfl
  case effects =>
    exact ⟨skips_of_exec_beq (exec_seImm s x nn), skips_of_exec_bne (exec_sneImm s x nn),
      skips_of_exec_beq (exec_seReg s x y), skips_of_exec_bne (exec_sneReg s x y),
      skips_of_exec_beq (exec_skp s x), skips_of_exec_bne (exec_sknp s x)⟩

end Sys2Proof.Machine
end

section
/-! The words of the class 8 rows (30_encoding.md R73, R74), and what the flagless register loads and the load of `I`
answer (42_alu.md R129 to R134, R140). -/

namespace Sys2Proof.Machine

/-- A row that is selected by its class and the function code `N`. -/
theorem denotes_of_class_n {mask value : Word} {i : Fields → Instr}
    (hmask : mask.extractLsb' 12 4 = BitVec.allOnes 4) (hmask' : mask.extractLsb' 0 4 = BitVec.allOnes 4)
    (hi : ∀ f : Fields, dispatch { f with opClass := value.extractLsb' 12 4, n := value.extractLsb' 0 4 } = .ok (i f)) :
    Denotes mask value i := by
  intro w hw
  have hclass : (fieldsOf w).opClass = value.extractLsb' 12 4 := bitSlice_of_and_eq hw hmask
  have hcode : (fieldsOf w).n = value.extractLsb' 0 4 := bitSlice_of_and_eq hw hmask'
  have hdispatch := hi (fieldsOf w)
  rwa [← hclass, ← hcode] at hdispatch

variable (s : State)

/-! ### What each instruction answers -/

theorem exec_ldImm (x : Reg) (nn : Byte) : exec (.ldImm x nn) s = .next (s.setReg x nn) := rfl
theorem exec_addImm (x : Reg) (nn : Byte) : exec (.addImm x nn) s = .next (s.setReg x (s.reg x + nn)) := rfl
theorem exec_ldReg (x y : Reg) : exec (.ldReg x y) s = .next (s.setReg x (s.reg y)) := rfl
theorem exec_or (x y : Reg) : exec (.or x y) s = .next (s.setReg x (s.reg x ||| s.reg y)) := rfl
theorem exec_and (x y : Reg) : exec (.and x y) s = .next (s.setReg x (s.reg x &&& s.reg y)) := rfl
theorem exec_xor (x y : Reg) : exec (.xor x y) s = .next (s.setReg x (s.reg x ^^^ s.reg y)) := rfl
theorem exec_ldI (nnn : Addr) : exec (.ldI nnn) s = .next (s.setI (addrOperand nnn)) := rfl

/-- The zero extension keeps the number: 12 bits fit in 16. -/
@[simp] theorem addrOperand_toNat (nnn : Addr) : (addrOperand nnn).toNat = nnn.toNat :=
  BitVec.toNat_setWidth_of_le (by decide)

variable {s}

/-- An instruction that answers a single register write. -/
theorem writes_of_exec_setReg {i : Instr} {x : Reg} {b : Byte} (h : exec i s = .next (s.setReg x b)) :
    ∃ t, exec i s = .next t ∧ t.reg x = b ∧ Frame [x] [] s t :=
  ⟨_, h, s.reg_setReg_same x b, s.setReg_frame x b⟩

/-- The same, with the written byte given bit by bit. -/
theorem writesBits_of_exec_setReg {i : Instr} {x : Reg} {b : Byte} {bit : Nat → Bool}
    (h : exec i s = .next (s.setReg x b)) (hbit : ∀ k, b.getLsbD k = bit k) :
    ∃ t, exec i s = .next t ∧ Frame [x] [] s t ∧ ∀ k, (t.reg x).getLsbD k = bit k := by
  obtain ⟨t, hexec, hreg, hframe⟩ := writes_of_exec_setReg h
  exact ⟨t, hexec, hframe, fun k => hreg ▸ hbit k⟩

end Sys2Proof.Machine
end

section
/-! Loads, the addition of an immediate and the logic instructions (42_alu.md R129 to R134, R140). -/

namespace Sys2Proof.Machine

/-- Settles O19: both loads are one register write, which touches no other register, whichever `X` is. -/
theorem loadImmediateAndCopyRegister : Obligations.LoadImmediateAndCopyRegister := by
  refine ⟨?ldImm, ?ldReg, fun x y nn s => ?effects⟩
  case ldImm => exact denotes_of_class (by decide) fun _ => rfl
  case ldReg => exact denotes_of_class_n (by decide) (by decide) fun _ => rfl
  case effects => exact ⟨writes_of_exec_setReg (exec_ldImm s x nn), writes_of_exec_setReg (exec_ldReg s x y)⟩

/-- Settles O20: the addition is one register write of the sum of two bytes, and that sum is modulo 256. -/
theorem addImmediateWrapsWithoutFlag : Obligations.AddImmediateWrapsWithoutFlag := by
  refine ⟨denotes_of_class (by decide) fun _ => rfl, fun x nn s => ?_⟩
  obtain ⟨t, hexec, hreg, hframe⟩ := writes_of_exec_setReg (exec_addImm s x nn)
  exact ⟨t, hexec, hreg ▸ BitVec.toNat_add _ _, hframe⟩

/-- Settles O21: each of the three is one register write of the bitwise combination of the two registers. -/
theorem logicIsBitwiseWithoutFlag : Obligations.LogicIsBitwiseWithoutFlag := by
  refine ⟨?or, ?and, ?xor, fun x y s => ?effects⟩
  case or | and | xor => exact denotes_of_class_n (by decide) (by decide) fun _ => rfl
  case effects =>
    exact ⟨writesBits_of_exec_setReg (exec_or s x y) fun _ => BitVec.getLsbD_or,
      writesBits_of_exec_setReg (exec_and s x y) fun _ => BitVec.getLsbD_and,
      writesBits_of_exec_setReg (exec_xor s x y) fun _ => BitVec.getLsbD_xor⟩

/-- Settles O26: the instruction replaces `I` by the zero-extended address and does nothing else. -/
theorem loadAddressRegister : Obligations.LoadAddressRegister :=
  ⟨denotes_of_class (by decide) fun _ => rfl, fun nnn s =>
    ⟨_, exec_ldI s nnn, addrOperand_toNat nnn, s.setI_frame _⟩⟩

end Sys2Proof.Machine
end

section
/-! The clear of the display (43_display.md R150). -/

namespace Sys2Proof.Machine

theorem exec_cls (s : State) : exec .cls s = .next s.clearDisplay := rfl

/-- Settles O36: class and `N` select the row whatever the word's bits 11:4 are; the answer is the cleared display, in
which every pixel is off, and the clear's frame is the display alone. -/
theorem clearTurnsEveryPixelOff : Obligations.ClearTurnsEveryPixelOff := by
  refine ⟨?cls, fun s => ?effects⟩
  case cls => exact denotes_of_class_n (by decide) (by decide) fun _ => rfl
  case effects => exact ⟨s.clearDisplay, exec_cls s, s.pixel_clearDisplay, s.clearDisplay_frame⟩

end Sys2Proof.Machine
end

section
/-! The timer moves and the sound-timer instruction (44_key_timer_mem.md R162, R164, R165). -/

namespace Sys2Proof.Machine

variable (s : State)

theorem exec_ldFromDt (x : Reg) : exec (.ldFromDt x) s = .next (s.setReg x s.dt) := rfl
theorem exec_ldToDt (x : Reg) : exec (.ldToDt x) s = .next (s.setDt (s.reg x)) := rfl
theorem exec_ldSt (x : Reg) : exec (.ldSt x) s = .next s := rfl

end Sys2Proof.Machine
end

section
/-! The three rows of class F that name a timer. -/

namespace Sys2Proof.Machine

/-- Settles O39: class and `NN` select each row; the first is one register write of the timer, the second one timer
write of the register, and the third answers the very state it found. -/
theorem timerMovesAndSoundNoOperation : Obligations.TimerMovesAndSoundNoOperation := by
  refine ⟨?ldFromDt, ?ldToDt, ?ldSt, fun x s => ⟨?fromTimer, ?toTimer, ?noOperation⟩⟩
  case ldFromDt | ldToDt | ldSt => exact denotes_of_class_nn (by decide) (by decide) fun _ => rfl
  case fromTimer => exact writes_of_exec_setReg (exec_ldFromDt s x)
  case toTimer => exact ⟨s.setDt (s.reg x), exec_ldToDt s x, s.setDt_dt _, s.setDt_frame _⟩
  case noOperation => exact ⟨s, exec_ldSt s x, Frame.refl s [] []⟩

end Sys2Proof.Machine
end

section
/-! The three formats against the fields (30_encoding.md R71): what is put into a word is read back from it, and a word
is put together again from its own fields. -/

namespace Sys2Proof.Machine

@[simp] theorem regOfNibble_nibbleOfReg (r : Reg) : regOfNibble (nibbleOfReg r) = r := by
  ext; simp only [regOfNibble, nibbleOfReg, BitVec.toNat_ofNat]; omega

@[simp] theorem nibbleOfReg_regOfNibble (b : Nibble) : nibbleOfReg (regOfNibble b) = b := by
  simp [nibbleOfReg, regOfNibble]

theorem fieldsOf_formatA (c : Nibble) (nnn : Addr) :
    fieldsOf (formatA c nnn) = { fieldsOf (formatA c nnn) with opClass := c, nnn := nnn } := by
  simp only [fieldsOf, Fields.mk.injEq, true_and]
  exact ⟨BitVec.extractLsb'_append_eq_left, BitVec.extractLsb'_append_eq_right⟩

theorem fieldsOf_formatI (c : Nibble) (x : Reg) (nn : Byte) :
    fieldsOf (formatI c x nn) = { fieldsOf (formatI c x nn) with opClass := c, x := x, nn := nn } := by
  have hx : (formatI c x nn).extractLsb' 8 4 = nibbleOfReg x :=
    (BitVec.extractLsb'_append_eq_of_add_le (by omega)).trans BitVec.extractLsb'_append_eq_left
  have hnn : (formatI c x nn).extractLsb' 0 8 = nn :=
    (BitVec.extractLsb'_append_eq_of_add_le (by omega)).trans BitVec.extractLsb'_append_eq_right
  simp only [fieldsOf, Fields.mk.injEq, and_true, hx, hnn, regOfNibble_nibbleOfReg]
  exact BitVec.extractLsb'_append_eq_left

theorem fieldsOf_formatR (c : Nibble) (x y : Reg) (n : Nibble) :
    fieldsOf (formatR c x y n) = { fieldsOf (formatR c x y n) with opClass := c, x := x, y := y, n := n } := by
  have hx : (formatR c x y n).extractLsb' 8 4 = nibbleOfReg x :=
    (BitVec.extractLsb'_append_eq_of_add_le (by omega)).trans BitVec.extractLsb'_append_eq_left
  have lowByte : ∀ start len, start + len ≤ 8 →
      (formatR c x y n).extractLsb' start len = (nibbleOfReg y ++ n).extractLsb' start len := fun start len h =>
    (BitVec.extractLsb'_append_eq_of_add_le (by omega)).trans (BitVec.extractLsb'_append_eq_of_add_le h)
  have hy := (lowByte 4 4 (by omega)).trans BitVec.extractLsb'_append_eq_left
  have hn := (lowByte 0 4 (by omega)).trans BitVec.extractLsb'_append_eq_right
  simp only [fieldsOf, Fields.mk.injEq, and_true, hx, hy, hn, regOfNibble_nibbleOfReg]
  exact BitVec.extractLsb'_append_eq_left

variable (w : Word)

theorem formatA_fieldsOf : formatA (fieldsOf w).opClass (fieldsOf w).nnn = w :=
  BitVec.extractLsb'_append_extractLsb' (w := 4) (len := 12)

theorem formatI_fieldsOf : formatI (fieldsOf w).opClass (fieldsOf w).x (fieldsOf w).nn = w := by
  have hlow : w.extractLsb' 8 4 ++ w.extractLsb' 0 8 = w.extractLsb' 0 12 :=
    BitVec.extractLsb'_append_extractLsb'_eq_extractLsb' rfl
  simp only [formatI, fieldsOf, nibbleOfReg_regOfNibble, hlow]
  exact formatA_fieldsOf w

theorem formatR_fieldsOf : formatR (fieldsOf w).opClass (fieldsOf w).x (fieldsOf w).y (fieldsOf w).n = w := by
  have hlow : nibbleOfReg (fieldsOf w).y ++ (fieldsOf w).n = (fieldsOf w).nn := by
    simp only [fieldsOf, nibbleOfReg_regOfNibble]
    exact BitVec.extractLsb'_append_extractLsb'_eq_extractLsb' rfl
  rw [formatR, hlow]
  exact formatI_fieldsOf w

end Sys2Proof.Machine
end

section
/-! The decoder on the words the encoder writes (30_encoding.md R70 to R74): the class and the function code that the
encoder wrote select the instruction again. -/

namespace Sys2Proof.Machine

theorem decodeWord_formatA (c : Nibble) (nnn : Addr) :
    decodeWord (formatA c nnn) = dispatch { fieldsOf (formatA c nnn) with opClass := c, nnn := nnn } :=
  congrArg dispatch (fieldsOf_formatA c nnn)

theorem decodeWord_formatI (c : Nibble) (x : Reg) (nn : Byte) :
    decodeWord (formatI c x nn) = dispatch { fieldsOf (formatI c x nn) with opClass := c, x := x, nn := nn } :=
  congrArg dispatch (fieldsOf_formatI c x nn)

theorem decodeWord_formatR (c : Nibble) (x y : Reg) (n : Nibble) :
    decodeWord (formatR c x y n) =
      dispatch { fieldsOf (formatR c x y n) with opClass := c, x := x, y := y, n := n } :=
  congrArg dispatch (fieldsOf_formatR c x y n)

/-- Settles O2: by the instruction's format, the fields of its word are what the encoder put there, and dispatch on them
leads to its own constructor. -/
theorem decodeOfEncodeIsTheInstruction : Obligations.DecodeOfEncodeIsTheInstruction := by
  intro i
  cases i with
  | cls | ret => decide
  | jp nnn | call nnn | ldI nnn | jpV0 nnn => exact decodeWord_formatA _ nnn
  | seImm x nn | sneImm x nn | ldImm x nn | addImm x nn | rnd x nn => exact decodeWord_formatI _ x nn
  | skp x | sknp x | ldFromDt x | ldKey x | ldToDt x | ldSt x | addI x | ldFont x | ldBcd x | dump x | load x =>
    exact decodeWord_formatI _ x _
  | seReg x y | sneReg x y | ldReg x y | or x y | and x y | xor x y | addReg x y | sub x y | subn x y =>
    exact decodeWord_formatR _ x y _
  | shr x | shl x => exact decodeWord_formatR _ x 0 _
  | drw x y n => exact decodeWord_formatR _ x y n

end Sys2Proof.Machine
end

section
/-! The decoder's answer against the word it came from (30_encoding.md R75): every bit that is read is in the encoding
of the answer. -/

namespace Sys2Proof.Machine

variable {w : Word} {i : Instr}

theorem eq_formatA_of_class {c : Nibble} (hc : (fieldsOf w).opClass.toNat = c.toNat) :
    w = formatA c (fieldsOf w).nnn := by
  rw [← BitVec.eq_of_toNat_eq hc, formatA_fieldsOf]

theorem eq_formatI_of_class {c : Nibble} (hc : (fieldsOf w).opClass.toNat = c.toNat) :
    w = formatI c (fieldsOf w).x (fieldsOf w).nn := by
  rw [← BitVec.eq_of_toNat_eq hc, formatI_fieldsOf]

theorem eq_formatI_of_code {c : Nibble} {nn : Byte} (hc : (fieldsOf w).opClass.toNat = c.toNat)
    (hnn : (fieldsOf w).nn.toNat = nn.toNat) : w = formatI c (fieldsOf w).x nn := by
  rw [← BitVec.eq_of_toNat_eq hnn]; exact eq_formatI_of_class hc

theorem eq_formatR_of_class {c : Nibble} (hc : (fieldsOf w).opClass.toNat = c.toNat) :
    w = formatR c (fieldsOf w).x (fieldsOf w).y (fieldsOf w).n := by
  rw [← BitVec.eq_of_toNat_eq hc, formatR_fieldsOf]

theorem eq_formatR_of_code {c n : Nibble} (hc : (fieldsOf w).opClass.toNat = c.toNat)
    (hn : (fieldsOf w).n.toNat = n.toNat) : w = formatR c (fieldsOf w).x (fieldsOf w).y n := by
  rw [← BitVec.eq_of_toNat_eq hn]; exact eq_formatR_of_class hc

/-- In class 0 the code alone is fixed, and no operand is read. -/
theorem and_code_of_code {c n : Nibble} (hc : (fieldsOf w).opClass.toNat = c.toNat)
    (hn : (fieldsOf w).n.toNat = n.toNat) : w &&& 0xF00F = formatR c 0 0 n := by
  rw [← Laws.formatR_and_code c (fieldsOf w).x (fieldsOf w).y n, ← eq_formatR_of_code hc hn]

/-- The register skips ignore `N`. -/
theorem and_withoutN_of_class {c : Nibble} (hc : (fieldsOf w).opClass.toNat = c.toNat) :
    w &&& (0xF000 ||| 0x0FF0) = formatR c (fieldsOf w).x (fieldsOf w).y 0 &&& (0xF000 ||| 0x0FF0) := by
  conv_lhs => rw [eq_formatR_of_class hc]
  apply BitVec.eq_of_getLsbD_eq
  intro k hk
  simp only [formatR, BitVec.getLsbD_and, BitVec.getLsbD_append]
  interval_cases k <;> simp

/-- The shifts ignore `Y`. -/
theorem and_withoutY_of_code {c n : Nibble} (hc : (fieldsOf w).opClass.toNat = c.toNat)
    (hn : (fieldsOf w).n.toNat = n.toNat) :
    w &&& (0xF00F ||| 0x0F00) = formatR c (fieldsOf w).x 0 n &&& (0xF00F ||| 0x0F00) := by
  conv_lhs => rw [eq_formatR_of_code hc hn]
  apply BitVec.eq_of_getLsbD_eq
  intro k hk
  simp only [formatR, BitVec.getLsbD_and, BitVec.getLsbD_append]
  interval_cases k <;> simp

/-- The word has the instruction's fixed bits and its operand bits: it is the instruction's encoding, up to ignored
bits. -/
def Spells (w : Word) (i : Instr) : Prop :=
  w &&& (i.row.mask ||| i.operandMask) = encode i &&& (i.row.mask ||| i.operandMask)

theorem Spells.of_eq (h : w = encode i) : Spells w i := by rw [Spells, ← h]

theorem spells_of_dispatchClass0 (hc : (fieldsOf w).opClass.toNat = 0x0) (h : dispatchClass0 (fieldsOf w) = .ok i) :
    Spells w i := by
  unfold dispatchClass0 at h
  split at h
  case h_1 hn => cases h; exact and_code_of_code (c := 0x0) (n := 0x0) hc hn
  case h_2 hn => cases h; exact and_code_of_code (c := 0x0) (n := 0xE) hc hn
  case h_3 => cases h

theorem spells_of_dispatchClass8 (hc : (fieldsOf w).opClass.toNat = 0x8) (h : dispatchClass8 (fieldsOf w) = .ok i) :
    Spells w i := by
  unfold dispatchClass8 at h
  split at h <;> cases h
  case h_7.refl hn => exact and_withoutY_of_code (c := 0x8) (n := 0x6) hc hn
  case h_9.refl hn => exact and_withoutY_of_code (c := 0x8) (n := 0xE) hc hn
  all_goals exact .of_eq (eq_formatR_of_code hc ‹_›)

theorem spells_of_dispatchClassE (hc : (fieldsOf w).opClass.toNat = 0xE) (h : dispatchClassE (fieldsOf w) = .ok i) :
    Spells w i := by
  unfold dispatchClassE at h
  split at h <;> cases h
  all_goals exact .of_eq (eq_formatI_of_code hc ‹_›)

theorem spells_of_dispatchClassF (hc : (fieldsOf w).opClass.toNat = 0xF) (h : dispatchClassF (fieldsOf w) = .ok i) :
    Spells w i := by
  unfold dispatchClassF at h
  split at h <;> cases h
  all_goals exact .of_eq (eq_formatI_of_code hc ‹_›)

theorem spells_of_decodeWord (h : decodeWord w = .ok i) : Spells w i := by
  unfold decodeWord dispatch at h
  split at h
  case h_1 hc => exact spells_of_dispatchClass0 hc h
  case h_9 hc => exact spells_of_dispatchClass8 hc h
  case h_15 hc => exact spells_of_dispatchClassE hc h
  case h_16 => exact spells_of_dispatchClassF (by have := (fieldsOf w).opClass.isLt; grind) h
  case h_2 hc | h_3 hc | h_11 hc | h_12 hc => cases h; exact .of_eq (eq_formatA_of_class hc)
  case h_4 hc | h_5 hc | h_7 hc | h_8 hc | h_13 hc => cases h; exact .of_eq (eq_formatI_of_class hc)
  case h_6 hc => cases h; exact and_withoutN_of_class (c := 0x5) hc
  case h_10 hc => cases h; exact and_withoutN_of_class (c := 0x9) hc
  case h_14 hc => cases h; exact .of_eq (eq_formatR_of_class hc)

/-- Settles O3: the word is put together from its fields again, and the encoder puts in the same ones, but for a nibble
that the row's two masks leave out. -/
theorem encodeOfDecodeKeepsEveryReadBit : Obligations.EncodeOfDecodeKeepsEveryReadBit :=
  fun _ _ h => spells_of_decodeWord h

end Sys2Proof.Machine
end

section
/-! The rows of the opcode map against the decoder (30_encoding.md R74, R76): every row is some instruction's, and every
word that selects it decodes to an instruction of that row. -/

namespace Sys2Proof

/-- The instruction of `i`'s row with the operands of the fields `f`. -/
def Instr.withFields (i : Instr) (f : Fields) : Instr :=
  match i with
  | .cls => .cls
  | .ret => .ret
  | .jp _ => .jp f.nnn
  | .call _ => .call f.nnn
  | .seImm _ _ => .seImm f.x f.nn
  | .sneImm _ _ => .sneImm f.x f.nn
  | .seReg _ _ => .seReg f.x f.y
  | .ldImm _ _ => .ldImm f.x f.nn
  | .addImm _ _ => .addImm f.x f.nn
  | .ldReg _ _ => .ldReg f.x f.y
  | .or _ _ => .or f.x f.y
  | .and _ _ => .and f.x f.y
  | .xor _ _ => .xor f.x f.y
  | .addReg _ _ => .addReg f.x f.y
  | .sub _ _ => .sub f.x f.y
  | .shr _ => .shr f.x
  | .subn _ _ => .subn f.x f.y
  | .shl _ => .shl f.x
  | .sneReg _ _ => .sneReg f.x f.y
  | .ldI _ => .ldI f.nnn
  | .jpV0 _ => .jpV0 f.nnn
  | .rnd _ _ => .rnd f.x f.nn
  | .drw _ _ _ => .drw f.x f.y f.n
  | .skp _ => .skp f.x
  | .sknp _ => .sknp f.x
  | .ldFromDt _ => .ldFromDt f.x
  | .ldKey _ => .ldKey f.x
  | .ldToDt _ => .ldToDt f.x
  | .ldSt _ => .ldSt f.x
  | .addI _ => .addI f.x
  | .ldFont _ => .ldFont f.x
  | .ldBcd _ => .ldBcd f.x
  | .dump _ => .dump f.x
  | .load _ => .load f.x

theorem Instr.row_withFields (i : Instr) (f : Fields) : (i.withFields f).row = i.row := by cases i <;> rfl

end Sys2Proof
end

section
/-! The decoder accepts the words of the map's rows and no others. -/

namespace Sys2Proof.Machine

/-- The first line of every instruction rule: a row is selected by its class, or by class and `N`, or by class and
`NN`. -/
theorem denotes_row (i : Instr) : Denotes i.row.mask i.row.value i.withFields := by
  cases i with
  | cls | ret | ldReg | or | and | xor | addReg | sub | shr | subn | shl =>
    simp only [Instr.row]; exact denotes_of_class_n (by decide) (by decide) fun _ => rfl
  | skp | sknp | ldFromDt | ldKey | ldToDt | ldSt | addI | ldFont | ldBcd | dump | load =>
    simp only [Instr.row]; exact denotes_of_class_nn (by decide) (by decide) fun _ => rfl
  | jp | call | seImm | sneImm | seReg | ldImm | addImm | sneReg | ldI | jpV0 | rnd | drw =>
    simp only [Instr.row]; exact denotes_of_class (by decide) fun _ => rfl

/-- One instruction for each row, in the map's order. -/
def rowInstrs : List Instr :=
  [.cls, .ret, .jp 0, .call 0, .seImm 0 0, .sneImm 0 0, .seReg 0 0, .ldImm 0 0, .addImm 0 0,
   .ldReg 0 0, .or 0 0, .and 0 0, .xor 0 0, .addReg 0 0, .sub 0 0, .shr 0, .subn 0 0, .shl 0,
   .sneReg 0 0, .ldI 0, .jpV0 0, .rnd 0 0, .drw 0 0 0, .skp 0, .sknp 0,
   .ldFromDt 0, .ldKey 0, .ldToDt 0, .ldSt 0, .addI 0, .ldFont 0, .ldBcd 0, .dump 0, .load 0]

theorem opcodeRows_eq_map_row : opcodeRows = rowInstrs.map Instr.row := rfl

variable {w : Word} {r : Row}

theorem exists_row_eq (hr : r ∈ opcodeRows) : ∃ i : Instr, i.row = r := by
  rw [opcodeRows_eq_map_row, List.mem_map] at hr
  obtain ⟨i, -, hi⟩ := hr
  exact ⟨i, hi⟩

theorem row_mem_opcodeRows (i : Instr) : i.row ∈ opcodeRows := by cases i <;> exact List.elem_iff.mp rfl

/-- A word that selects a row of the map decodes to an instruction of that row. -/
theorem decodeWord_of_selects (hr : r ∈ opcodeRows) (hw : r.selects w = true) :
    ∃ i, decodeWord w = .ok i ∧ i.row = r := by
  obtain ⟨i, rfl⟩ := exists_row_eq hr
  exact ⟨i.withFields (fieldsOf w), denotes_row i w (beq_iff_eq.mp hw), i.row_withFields _⟩

/-- The laws of the encoder's rows, of every instruction. -/
theorem row_selects_encode : ∀ i : Instr, i.row.selects (encode i) = true
  | .cls => Laws.EncodeSelectsRow.cls
  | .ret => Laws.EncodeSelectsRow.ret
  | .jp nnn => Laws.EncodeSelectsRow.jp nnn
  | .call nnn => Laws.EncodeSelectsRow.call nnn
  | .seImm x nn => Laws.EncodeSelectsRow.seImm x nn
  | .sneImm x nn => Laws.EncodeSelectsRow.sneImm x nn
  | .seReg x y => Laws.EncodeSelectsRow.seReg x y
  | .ldImm x nn => Laws.EncodeSelectsRow.ldImm x nn
  | .addImm x nn => Laws.EncodeSelectsRow.addImm x nn
  | .ldReg x y => Laws.EncodeSelectsRow.ldReg x y
  | .or x y => Laws.EncodeSelectsRow.or x y
  | .and x y => Laws.EncodeSelectsRow.and x y
  | .xor x y => Laws.EncodeSelectsRow.xor x y
  | .addReg x y => Laws.EncodeSelectsRow.addReg x y
  | .sub x y => Laws.EncodeSelectsRow.sub x y
  | .shr x => Laws.EncodeSelectsRow.shr x
  | .subn x y => Laws.EncodeSelectsRow.subn x y
  | .shl x => Laws.EncodeSelectsRow.shl x
  | .sneReg x y => Laws.EncodeSelectsRow.sneReg x y
  | .ldI nnn => Laws.EncodeSelectsRow.ldI nnn
  | .jpV0 nnn => Laws.EncodeSelectsRow.jpV0 nnn
  | .rnd x nn => Laws.EncodeSelectsRow.rnd x nn
  | .drw x y n => Laws.EncodeSelectsRow.drw x y n
  | .skp x => Laws.EncodeSelectsRow.skp x
  | .sknp x => Laws.EncodeSelectsRow.sknp x
  | .ldFromDt x => Laws.EncodeSelectsRow.ldFromDt x
  | .ldKey x => Laws.EncodeSelectsRow.ldKey x
  | .ldToDt x => Laws.EncodeSelectsRow.ldToDt x
  | .ldSt x => Laws.EncodeSelectsRow.ldSt x
  | .addI x => Laws.EncodeSelectsRow.addI x
  | .ldFont x => Laws.EncodeSelectsRow.ldFont x
  | .ldBcd x => Laws.EncodeSelectsRow.ldBcd x
  | .dump x => Laws.EncodeSelectsRow.dump x
  | .load x => Laws.EncodeSelectsRow.load x

/-- The word of an instruction selects its row: the row's mask lies under the bits that are read. -/
theorem row_selects_of_decodeWord {i : Instr} (h : decodeWord w = .ok i) : i.row.selects w = true := by
  have hspells : Spells w i := spells_of_decodeWord h
  have absorb : ∀ v : Word, v &&& (i.row.mask ||| i.operandMask) &&& i.row.mask = v &&& i.row.mask := by
    intro v; rw [BitVec.and_assoc]; congr 1; ext k; simp +contextual
  rw [Row.selects, ← absorb w, hspells, absorb (encode i)]
  exact row_selects_encode i

theorem wellFormedWord_iff : wellFormedWord w = true ↔ ∃ r ∈ opcodeRows, r.selects w = true := List.any_eq_true

theorem decodes_iff_wellFormedWord : (∃ i, decodeWord w = .ok i) ↔ wellFormedWord w = true := by
  rw [wellFormedWord_iff]
  constructor
  · rintro ⟨i, hi⟩
    exact ⟨i.row, row_mem_opcodeRows i, row_selects_of_decodeWord hi⟩
  · rintro ⟨r, hr, hw⟩
    obtain ⟨i, hi, -⟩ := decodeWord_of_selects hr hw
    exact ⟨i, hi⟩

/-- Settles O4: a selected row's first line decodes the word, and a decoded word has its row's fixed bits. -/
theorem decoderAcceptsExactlyTheTableRows : Obligations.DecoderAcceptsExactlyTheTableRows :=
  fun _ => ⟨decodes_iff_wellFormedWord, fun i hi => ⟨row_mem_opcodeRows i, row_selects_of_decodeWord hi⟩⟩

/-- Settles O5: the decoder answers one instruction, and both rows are the row of that one. -/
theorem opcodeRowsNeverOverlap : Obligations.OpcodeRowsNeverOverlap := by
  intro w r r' hr hr' hw hw'
  obtain ⟨i, hi, rfl⟩ := decodeWord_of_selects hr hw
  obtain ⟨i', hi', rfl⟩ := decodeWord_of_selects hr' hw'
  rw [hi, Except.ok.injEq] at hi'
  rw [hi']

/-- Settles O6: the ten words, evaluated. -/
theorem sampleWordsDecode : Obligations.SampleWordsDecode := by unfold Obligations.SampleWordsDecode; decide

end Sys2Proof.Machine
end

section
/-! What each of the other instructions answers: one equation each, and one per branch where the instruction can fault
(41_flow.md, 42_alu.md, 43_display.md, 44_key_timer_mem.md). -/

namespace Sys2Proof.Machine

variable (s : State)

theorem exec_rnd (x : Reg) (nn : Byte) : exec (.rnd x nn) s = .next (s.setReg x (s.rnd &&& nn)) := rfl
theorem exec_addReg (x y : Reg) : exec (.addReg x y) s =
    .next (s.flagThenResult x (carryFlag (s.reg x) (s.reg y)) (fun t => t.reg x + t.reg y)) := rfl
theorem exec_sub (x y : Reg) : exec (.sub x y) s =
    .next (s.flagThenResult x (borrowFlag (s.reg x) (s.reg y)) (fun t => t.reg x - t.reg y)) := rfl
theorem exec_subn (x y : Reg) : exec (.subn x y) s =
    .next (s.flagThenResult x (borrowFlag (s.reg y) (s.reg x)) (fun t => t.reg y - t.reg x)) := rfl
theorem exec_shr (x : Reg) : exec (.shr x) s =
    .next (s.flagThenResult x (shrFlag (s.reg x)) (fun t => t.reg x >>> 1)) := rfl
theorem exec_shl (x : Reg) : exec (.shl x) s =
    .next (s.flagThenResult x (shlFlag (s.reg x)) (fun t => t.reg x <<< 1)) := rfl
theorem exec_jp (nnn : Addr) : exec (.jp nnn) s = .next (s.setPc (addrOperand nnn)) := rfl
theorem exec_jpV0 (nnn : Addr) : exec (.jpV0 nnn) s =
    .next (s.setPc (byteOperand (s.reg 0) + addrOperand nnn)) := rfl
theorem exec_ldKey (x : Reg) : exec (.ldKey x) s = .next (s.enterWait x) := rfl
theorem exec_addI (x : Reg) : exec (.addI x) s = .next (s.setI (s.I + byteOperand (s.reg x))) := rfl
theorem exec_ldFont (x : Reg) : exec (.ldFont x) s =
    .next (s.setI (byteOperand (s.readMem (s.fontAddress s.params.fx29Operand x)))) := rfl

variable {s}

theorem exec_ret_of_cons {v : Word} {rest : List Word} (h : s.stack = v :: rest) :
    exec .ret s = .next ((s.setStack rest).setPc v) := by
  simp only [exec, execRet, State.pop, h, State.commit_ok]

theorem exec_ret_of_nil (h : s.stack = []) : exec .ret s = .next (s.raiseFault .stackUnderflow) := by
  simp only [exec, execRet, State.pop, h, State.commit_error]

theorem exec_call_of_room (nnn : Addr) (h : s.stack.length < s.params.stackDepth) :
    exec (.call nnn) s = .next ((s.setStack (s.pc :: s.stack)).setPc (addrOperand nnn)) := by
  simp only [exec, execCall, State.push, if_neg h.not_ge, State.commit_ok]

theorem exec_call_of_full (nnn : Addr) (h : s.params.stackDepth ≤ s.stack.length) :
    exec (.call nnn) s = .next (s.raiseFault .stackOverflow) := by
  simp only [exec, execCall, State.push, if_pos h, State.commit_error]

theorem exec_ldBcd_of_le (x : Reg) (h : s.I.toNat ≤ 4095) : exec (.ldBcd x) s = .next (s.storeDigits (s.reg x)) := by
  have hin : spanOutOfImage (s.indexed 0) 1 = false := by simp [spanOutOfImage, State.indexed, h]
  simp [exec, execLdBcd, hin]

theorem exec_ldBcd_of_gt (x : Reg) (h : s.I.toNat > 4095) :
    exec (.ldBcd x) s = .next (s.raiseFault .memWriteOutOfBounds) := by
  have hout : spanOutOfImage (s.indexed 0) 1 = true := (spanOutOfImage_iff _ _).mpr ⟨by omega, by simpa [State.indexed]⟩
  simp [exec, execLdBcd, hout]

/-- A range of `n` bytes from `I` on, all of them in the image. -/
theorem span_in_image {n : Nat} (h : n = 0 ∨ s.I.toNat + n ≤ 4096) : spanOutOfImage (s.indexed 0) n = false := by
  rw [← Bool.not_eq_true, spanOutOfImage_iff, State.indexed]; omega

/-- A range of `n` bytes from `I` on whose last one lies above 4095. -/
theorem span_out_of_image {n : Nat} (hn : n > 0) (h : s.I.toNat + n - 1 > 4095) :
    spanOutOfImage (s.indexed 0) n = true := (spanOutOfImage_iff _ _).mpr ⟨hn, h⟩

theorem exec_dump_of_in (x : Reg) (h : x.val = 0 ∨ s.I.toNat + x.val ≤ 4096) :
    exec (.dump x) s = .next (s.storeRegs x.val) := by
  simp [exec, execDump, span_in_image h]

theorem exec_dump_of_out (x : Reg) (hx : x.val > 0) (h : s.I.toNat + x.val - 1 > 4095) :
    exec (.dump x) s = .next (s.raiseFault .memWriteOutOfBounds) := by
  simp [exec, execDump, span_out_of_image hx h]

theorem exec_load_of_in (x : Reg) (h : x.val = 0 ∨ s.I.toNat + x.val ≤ 4096) :
    exec (.load x) s = .next (s.loadRegs x.val) := by
  simp [exec, execLoad, span_in_image h]

theorem exec_load_of_out (x : Reg) (hx : x.val > 0) (h : s.I.toNat + x.val - 1 > 4095) :
    exec (.load x) s = .next (s.raiseFault .memReadOutOfBounds) := by
  simp [exec, execLoad, span_out_of_image hx h]

theorem exec_drw_of_in (x y : Reg) (n : Nibble) (h : n.toNat = 0 ∨ s.I.toNat + n.toNat ≤ 4096) :
    exec (.drw x y n) s = .next (s.drawSprite x y n.toNat) := by
  simp [exec, execDrw, span_in_image h]

theorem exec_drw_of_out (x y : Reg) (n : Nibble) (hn : n.toNat > 0) (h : s.I.toNat + n.toNat - 1 > 4095) :
    exec (.drw x y n) s = .next (s.raiseFault .memReadOutOfBounds) := by
  simp [exec, execDrw, span_out_of_image hn h]

end Sys2Proof.Machine
end

section
/-! What an instruction can do, said once (60_exceptions.md R181; 10_state.md R20 to R32): it takes the fault of its row
of the fault table, or it completes in one of a dozen ways. -/

namespace Sys2Proof.Machine

/-- The fault table: the instruction meets the condition of the cause (60_exceptions.md R181). -/
def FaultsWith (i : Instr) (s : State) : FaultCause → Prop
  | .stackUnderflow => i = .ret ∧ s.stack = []
  | .stackOverflow => (∃ nnn, i = .call nnn) ∧ s.params.stackDepth ≤ s.stack.length
  | .memReadOutOfBounds =>
    (∃ x y n, i = .drw x y n ∧ n.toNat > 0 ∧ s.I.toNat + n.toNat - 1 > 4095) ∨
    (∃ x, i = .load x ∧ x.val > 0 ∧ s.I.toNat + x.val - 1 > 4095)
  | .memWriteOutOfBounds =>
    (∃ x, i = .ldBcd x ∧ s.I.toNat > 4095) ∨ (∃ x, i = .dump x ∧ x.val > 0 ∧ s.I.toNat + x.val - 1 > 4095)
  | .none | .fetchOutOfBounds | .illegalInstruction => False

/-- An instruction whose one effect is to write the register `r`. -/
def WritesPlainly (i : Instr) (r : Reg) : Prop :=
  (∃ nn, i = .ldImm r nn ∨ i = .addImm r nn ∨ i = .rnd r nn) ∨
  (∃ y, i = .ldReg r y ∨ i = .or r y ∨ i = .and r y ∨ i = .xor r y) ∨ i = .ldFromDt r

/-- An instruction that writes a flag into `VF` and then its result into the register `r`. -/
def WritesWithFlag (i : Instr) (r : Reg) : Prop :=
  (∃ y, i = .addReg r y ∨ i = .sub r y ∨ i = .subn r y) ∨ i = .shr r ∨ i = .shl r

/-- A jump or a skip. -/
def JumpsOrSkips (i : Instr) : Prop :=
  (∃ nnn, i = .jp nnn ∨ i = .jpV0 nnn) ∨ (∃ x nn, i = .seImm x nn ∨ i = .sneImm x nn) ∨
  (∃ x y, i = .seReg x y ∨ i = .sneReg x y) ∨ ∃ x, i = .skp x ∨ i = .sknp x

/-- An instruction that writes `I`. -/
def WritesI (i : Instr) : Prop := (∃ nnn, i = .ldI nnn) ∨ ∃ x, i = .addI x ∨ i = .ldFont x

/-- An instruction that writes the image. -/
def WritesMem (i : Instr) : Prop := ∃ x, i = .ldBcd x ∨ i = .dump x

/-- The state an instruction completes in, when it takes no fault. -/
inductive Completes (s : State) : Instr → State → Prop
  | register {i : Instr} {r : Reg} (hi : WritesPlainly i r) (b : Byte) : Completes s i (s.setReg r b)
  | flagged {i : Instr} {r : Reg} (hi : WritesWithFlag i r) (flag : Byte) (result : State → Byte) :
    Completes s i (s.flagThenResult r flag result)
  | jump {i : Instr} (hi : JumpsOrSkips i) (a : Word) (ha : a.toNat ≤ 0x10FE ∨ a = s.pc ∨ a = s.pc + 2) :
    Completes s i (s.setPc a)
  | address {i : Instr} (hi : WritesI i) (a : Word) : Completes s i (s.setI a)
  | timer (x : Reg) : Completes s (.ldToDt x) (s.setDt (s.reg x))
  | wait (x : Reg) : Completes s (.ldKey x) (s.enterWait x)
  | nothing (x : Reg) : Completes s (.ldSt x) s
  | clear : Completes s .cls s.clearDisplay
  | ret {v : Word} {rest : List Word} (h : s.stack = v :: rest) : Completes s .ret ((s.setStack rest).setPc v)
  | call (nnn : Addr) (h : s.stack.length < s.params.stackDepth) :
    Completes s (.call nnn) ((s.setStack (s.pc :: s.stack)).setPc (addrOperand nnn))
  | draw (x y : Reg) (n : Nibble) (V : Vector Byte 16) (px : Display) (hV : ∀ r, r ≠ VF → V.get r = s.reg r) :
    Completes s (.drw x y n) { s with V := V, px := px }
  | store {i : Instr} (hi : WritesMem i) (m : Memory) (h : s.MemCanonical → m.wf s.params.font = true) :
    Completes s i { s with mem := m }
  | load (x : Reg) (V : Vector Byte 16) (hV : ∀ r, ¬ r.val < x.val → V.get r = s.reg r) :
    Completes s (.load x) { s with V := V }

variable {s t : State} {i : Instr} {c c' : FaultCause}

/-- The three digit writes keep the image canonical. -/
theorem State.storeDigits_wf (h : s.MemCanonical) (hI : s.I.toNat ≤ 4095) (a : Byte) :
    (s.storeDigits a).mem.wf s.params.font = true :=
  have hin : s.I.toNat < Config.imageBytes := Nat.lt_succ_of_le hI
  Memory.wf_write (Memory.wf_write (Memory.wf_write h hin _) hin _) hin _

/-- The offset of `JP V0` does not wrap: `0xFF + 0xFFF`. -/
theorem jpV0_target_toNat (b : Byte) (nnn : Addr) :
    (byteOperand b + addrOperand nnn).toNat = b.toNat + nnn.toNat := by
  have hb : (byteOperand b).toNat = b.toNat := BitVec.toNat_setWidth_of_le (by decide)
  rw [BitVec.toNat_add, hb, addrOperand_toNat]
  omega

/-- The dump keeps the form; one of no register wherever `I` points. -/
theorem State.storeRegs_wf_of_in (h : s.MemCanonical) {n : Nat} (hn : n = 0 ∨ s.I.toNat + n ≤ 4096) :
    (s.storeRegs n).mem.wf s.params.font = true := by
  rcases hn with rfl | hn
  · exact h
  · exact State.storeRegs_wf h hn

theorem skipIf_completes (hi : JumpsOrSkips i) (b : Bool) : Completes s i (s.skipIf b) :=
  .jump hi _ (.inr (by cases b <;> simp))

/-! An instruction that meets no condition of the table has its range in the image, or room on the stack. -/

theorem drw_in_of_no_fault {x y : Reg} {n : Nibble} (h : ∀ c, ¬ FaultsWith (.drw x y n) s c) :
    n.toNat = 0 ∨ s.I.toNat + n.toNat ≤ 4096 := by
  have hin : ¬ (n.toNat > 0 ∧ s.I.toNat + n.toNat - 1 > 4095) := fun hn =>
    h .memReadOutOfBounds (.inl ⟨x, y, n, rfl, hn⟩)
  omega

theorem load_in_of_no_fault {x : Reg} (h : ∀ c, ¬ FaultsWith (.load x) s c) :
    x.val = 0 ∨ s.I.toNat + x.val ≤ 4096 := by
  have hin : ¬ (x.val > 0 ∧ s.I.toNat + x.val - 1 > 4095) := fun hx => h .memReadOutOfBounds (.inr ⟨x, rfl, hx⟩)
  omega

theorem dump_in_of_no_fault {x : Reg} (h : ∀ c, ¬ FaultsWith (.dump x) s c) :
    x.val = 0 ∨ s.I.toNat + x.val ≤ 4096 := by
  have hin : ¬ (x.val > 0 ∧ s.I.toNat + x.val - 1 > 4095) := fun hx => h .memWriteOutOfBounds (.inr ⟨x, rfl, hx⟩)
  omega

theorem ldBcd_in_of_no_fault {x : Reg} (h : ∀ c, ¬ FaultsWith (.ldBcd x) s c) : s.I.toNat ≤ 4095 :=
  not_lt.mp fun hI => h .memWriteOutOfBounds (.inl ⟨x, rfl, hI⟩)

theorem call_room_of_no_fault {nnn : Addr} (h : ∀ c, ¬ FaultsWith (.call nnn) s c) :
    s.stack.length < s.params.stackDepth :=
  not_le.mp fun hfull => h .stackOverflow ⟨⟨nnn, rfl⟩, hfull⟩

theorem exec_of_faultsWith (h : FaultsWith i s c) : exec i s = .next (s.raiseFault c) := by
  cases c with
  | none | fetchOutOfBounds | illegalInstruction => exact h.elim
  | stackUnderflow => obtain ⟨rfl, hs⟩ := h; exact exec_ret_of_nil hs
  | stackOverflow => obtain ⟨⟨nnn, rfl⟩, hs⟩ := h; exact exec_call_of_full nnn hs
  | memReadOutOfBounds =>
    rcases h with ⟨x, y, n, rfl, hn, hI⟩ | ⟨x, rfl, hx, hI⟩
    · exact exec_drw_of_out x y n hn hI
    · exact exec_load_of_out x hx hI
  | memWriteOutOfBounds =>
    rcases h with ⟨x, rfl, hI⟩ | ⟨x, rfl, hx, hI⟩
    · exact exec_ldBcd_of_gt x hI
    · exact exec_dump_of_out x hx hI

theorem exec_completes (h : ∀ c, ¬ FaultsWith i s c) : ∃ t, exec i s = .next t ∧ Completes s i t := by
  cases i with
  | ldImm r nn | addImm r nn | rnd r nn => exact ⟨_, rfl, .register (.inl ⟨nn, by simp⟩) _⟩
  | ldReg r y | or r y | and r y | xor r y => exact ⟨_, rfl, .register (.inr (.inl ⟨y, by simp⟩)) _⟩
  | ldFromDt r => exact ⟨_, rfl, .register (.inr (.inr rfl)) _⟩
  | addReg r y | sub r y | subn r y => exact ⟨_, rfl, .flagged (.inl ⟨y, by simp⟩) _ _⟩
  | shr r => exact ⟨_, rfl, .flagged (.inr (.inl rfl)) _ _⟩
  | shl r => exact ⟨_, rfl, .flagged (.inr (.inr rfl)) _ _⟩
  | jp nnn =>
    refine ⟨_, rfl, .jump (.inl ⟨nnn, .inl rfl⟩) _ (.inl ?_)⟩
    have := nnn.isLt; rw [addrOperand_toNat]; omega
  | jpV0 nnn =>
    refine ⟨_, rfl, .jump (.inl ⟨nnn, .inr rfl⟩) _ (.inl ?_)⟩
    have := nnn.isLt; have := (s.reg 0).isLt; rw [jpV0_target_toNat]; omega
  | seImm x nn | sneImm x nn => exact ⟨_, rfl, skipIf_completes (.inr (.inl ⟨x, nn, by simp⟩)) _⟩
  | seReg x y | sneReg x y => exact ⟨_, rfl, skipIf_completes (.inr (.inr (.inl ⟨x, y, by simp⟩))) _⟩
  | skp x | sknp x => exact ⟨_, rfl, skipIf_completes (.inr (.inr (.inr ⟨x, by simp⟩))) _⟩
  | ldI nnn => exact ⟨_, rfl, .address (.inl ⟨nnn, rfl⟩) _⟩
  | addI x | ldFont x => exact ⟨_, rfl, .address (.inr ⟨x, by simp⟩) _⟩
  | ldToDt x => exact ⟨_, rfl, .timer x⟩
  | ldKey x => exact ⟨_, rfl, .wait x⟩
  | ldSt x => exact ⟨_, rfl, .nothing x⟩
  | cls => exact ⟨_, rfl, .clear⟩
  | ret =>
    cases hs : s.stack with
    | nil => exact (h .stackUnderflow ⟨rfl, hs⟩).elim
    | cons v rest => exact ⟨_, exec_ret_of_cons hs, .ret hs⟩
  | call nnn =>
    have hroom := call_room_of_no_fault h
    exact ⟨_, exec_call_of_room nnn hroom, .call nnn hroom⟩
  | drw x y n =>
    obtain ⟨hreg, hrest⟩ := s.drawSprite_same x y n.toNat
    exact ⟨_, exec_drw_of_in x y n (drw_in_of_no_fault h), hrest ▸ .draw x y n _ _ hreg⟩
  | ldBcd x =>
    have hin := ldBcd_in_of_no_fault h
    exact ⟨_, exec_ldBcd_of_le x hin, .store ⟨x, .inl rfl⟩ _ fun hm => State.storeDigits_wf hm hin _⟩
  | dump x =>
    have hin := dump_in_of_no_fault h
    exact ⟨_, exec_dump_of_in x hin, s.storeRegs_rest x.val ▸
      .store ⟨x, .inr rfl⟩ _ fun hm => State.storeRegs_wf_of_in hm hin⟩
  | load x =>
    refine ⟨_, exec_load_of_in x (load_in_of_no_fault h), s.loadRegs_rest x.val ▸ .load x _ fun r hr => ?_⟩
    exact (s.reg_loadRegs x.isLt.le r).trans (if_neg hr)

/-- The inversion of `exec`: an instruction takes the fault of its row, or meets no row's condition and completes. -/
theorem exec_cases (h : exec i s = .next t) :
    (∃ c, FaultsWith i s c ∧ t = s.raiseFault c) ∨ ((∀ c, ¬ FaultsWith i s c) ∧ Completes s i t) := by
  by_cases hf : ∃ c, FaultsWith i s c
  · obtain ⟨c, hc⟩ := hf
    have : Host.Outcome.next t = .next (s.raiseFault c) := h.symm.trans (exec_of_faultsWith hc)
    exact .inl ⟨c, hc, Host.Outcome.next.inj this⟩
  · have hnone : ∀ c, ¬ FaultsWith i s c := fun c hc => hf ⟨c, hc⟩
    obtain ⟨t', ht', hcompletes⟩ := exec_completes hnone
    rw [h, Host.Outcome.next.injEq] at ht'
    exact .inr ⟨hnone, ht' ▸ hcompletes⟩

/-- Settles O50: the fault taken and the completion are both next states. -/
theorem everyInstructionAnswersANextState : Obligations.EveryInstructionAnswersANextState := by
  intro i s
  by_cases hf : ∃ c, FaultsWith i s c
  · obtain ⟨c, hc⟩ := hf
    exact ⟨_, exec_of_faultsWith hc⟩
  · obtain ⟨t, ht, -⟩ := exec_completes fun c hc => hf ⟨c, hc⟩
    exact ⟨t, ht⟩

end Sys2Proof.Machine
end

section
/-! The whole-machine rules over `exec` (10_state.md R20 to R36, 60_exceptions.md R181, R182): which instruction can
fault, and which instruction writes which part of the state. -/

namespace Sys2Proof.Machine

variable {s t : State} {i : Instr} {c c' : FaultCause}

/-- An instruction meets the condition of one cause at most: `exec` answers one state, with one cause in it. -/
theorem FaultsWith.unique (h : FaultsWith i s c) (h' : FaultsWith i s c') : c = c' := by
  have hanswer : s.raiseFault c = s.raiseFault c' :=
    Host.Outcome.next.inj ((exec_of_faultsWith h).symm.trans (exec_of_faultsWith h'))
  exact congrArg State.faultCause hanswer

theorem FaultsWith.instr (h : FaultsWith i s c) : c ≠ .none ∧ (i = .ret ∨ (∃ nnn, i = .call nnn) ∨
    (∃ x y n, i = .drw x y n) ∨ ∃ x, i = .ldBcd x ∨ i = .dump x ∨ i = .load x) := by
  cases c with
  | none | fetchOutOfBounds | illegalInstruction => exact h.elim
  | stackUnderflow => exact ⟨by decide, .inl h.1⟩
  | stackOverflow => exact ⟨by decide, .inr (.inl h.1)⟩
  | memReadOutOfBounds =>
    rcases h with ⟨x, y, n, rfl, -⟩ | ⟨x, rfl, -⟩
    · exact ⟨by decide, .inr (.inr (.inl ⟨x, y, n, rfl⟩))⟩
    · exact ⟨by decide, .inr (.inr (.inr ⟨x, .inr (.inr rfl)⟩))⟩
  | memWriteOutOfBounds =>
    rcases h with ⟨x, rfl, -⟩ | ⟨x, rfl, -⟩
    · exact ⟨by decide, .inr (.inr (.inr ⟨x, .inl rfl⟩))⟩
    · exact ⟨by decide, .inr (.inr (.inr ⟨x, .inr (.inl rfl)⟩))⟩

/-! ### What a completion writes -/

theorem Completes.fsm (h : Completes s i t) : t.fsm = s.fsm ∨ ((∃ x, i = .ldKey x) ∧ t.fsm = .awaitingKey) := by
  cases h
  case wait x => exact .inr ⟨⟨x, rfl⟩, rfl⟩
  all_goals exact .inl rfl

theorem Completes.waitReg (h : Completes s i t) : t.waitReg = s.waitReg ∨ ∃ x, i = .ldKey x := by
  cases h
  case wait x => exact .inr ⟨x, rfl⟩
  all_goals exact .inl rfl

theorem Completes.reg (h : Completes s i t) (r : Reg) : t.reg r = s.reg r ∨ WritesPlainly i r ∨ WritesWithFlag i r ∨
    (∃ x, i = .load x ∧ r.val < x.val) ∨ (r = VF ∧ ((∃ x, WritesWithFlag i x) ∨ ∃ x y n, i = .drw x y n)) := by
  cases h
  case register x b hi =>
    by_cases hr : r = x
    · exact .inr (.inl (hr ▸ hi))
    · exact .inl (s.reg_setReg_other hr b)
  case flagged x flag result hi =>
    by_cases hr : r = x
    · exact .inr (.inr (.inl (hr ▸ hi)))
    by_cases hf : r = VF
    · exact .inr (.inr (.inr (.inr ⟨hf, .inl ⟨x, hi⟩⟩)))
    · exact .inl (by rw [State.reg_flagThenResult, if_neg hr, if_neg hf])
  case draw x y n V px hV =>
    by_cases hf : r = VF
    · exact .inr (.inr (.inr (.inr ⟨hf, .inr ⟨x, y, n, rfl⟩⟩)))
    · exact .inl (hV r hf)
  case load x V hV =>
    by_cases hr : r.val < x.val
    · exact .inr (.inr (.inr (.inl ⟨x, rfl, hr⟩)))
    · exact .inl (hV r hr)
  all_goals exact .inl rfl

theorem Completes.px (h : Completes s i t) : t.px = s.px ∨ i = .cls ∨ ∃ x y n, i = .drw x y n := by
  cases h
  case clear => exact .inr (.inl rfl)
  case draw x y n _ _ _ => exact .inr (.inr ⟨x, y, n, rfl⟩)
  all_goals exact .inl rfl

theorem Completes.stack (h : Completes s i t) : t.stack = s.stack ∨ i = .ret ∨ ∃ nnn, i = .call nnn := by
  cases h
  case ret => exact .inr (.inl rfl)
  case call nnn _ => exact .inr (.inr ⟨nnn, rfl⟩)
  all_goals exact .inl rfl

theorem Completes.mem (h : Completes s i t) : t.mem = s.mem ∨ WritesMem i := by
  cases h
  case store => exact .inr ‹WritesMem i›
  all_goals exact .inl rfl

theorem Completes.I (h : Completes s i t) : t.I = s.I ∨ WritesI i := by
  cases h
  case address => exact .inr ‹WritesI i›
  all_goals exact .inl rfl

theorem Completes.dt (h : Completes s i t) : t.dt = s.dt ∨ ∃ x, i = .ldToDt x := by
  cases h
  case timer x => exact .inr ⟨x, rfl⟩
  all_goals exact .inl rfl

theorem Completes.pc (h : Completes s i t) :
    t.pc = s.pc ∨ i = .ret ∨ (∃ nnn, i = .call nnn) ∨ JumpsOrSkips i := by
  cases h
  case jump => exact .inr (.inr (.inr ‹JumpsOrSkips i›))
  case ret => exact .inr (.inl rfl)
  case call nnn _ => exact .inr (.inr (.inl ⟨nnn, rfl⟩))
  all_goals exact .inl rfl

theorem Completes.faultCause (h : Completes s i t) : t.faultCause = s.faultCause := by cases h <;> rfl

/-- The fields that are no part of an instruction's meaning. -/
theorem Completes.rest (h : Completes s i t) : t.lastInstr = s.lastInstr ∧ t.pending = s.pending ∧ t.key = s.key ∧
    t.rnd = s.rnd ∧ t.draws = s.draws ∧ t.loadWindow = s.loadWindow ∧ t.loadError = s.loadError ∧
    t.params = s.params := by
  cases h <;> exact ⟨rfl, rfl, rfl, rfl, rfl, rfl, rfl, rfl⟩

theorem Completes.not_faulted (h : Completes s i t) (hs : s.Live) : t.fsm ≠ .faulted := by
  rcases h.fsm with hf | ⟨-, hf⟩
  · exact hf ▸ hs
  · simp [hf]

/-! ### Faults -/

/-- From a live state an instruction ends in `Faulted` with the cause whose condition it meets, and only so. -/
theorem faults_iff_faultsWith (hs : s.Live) (h : exec i s = .next t) (c : FaultCause) :
    t.fsm = .faulted ∧ t.faultCause = c ↔ FaultsWith i s c := by
  rcases exec_cases h with ⟨d, hd, rfl⟩ | ⟨hnone, hcompletes⟩
  · constructor
    · rintro ⟨-, rfl⟩; exact hd
    · intro hc; exact ⟨rfl, hd.unique hc⟩
  · exact iff_of_false (fun hc => hcompletes.not_faulted hs hc.1) (hnone c)

/-- Settles O52: a fault is raised on the very state the instruction found, and the five conditions are the rows of the
fault table; the causes of the fetch and of the decoder are no instruction's. -/
theorem instructionsFaultExactlyByTheTable : Obligations.InstructionsFaultExactlyByTheTable := by
  intro i s t hs h
  have row := faults_iff_faultsWith hs h
  refine ⟨fun hf => ?precise, row .stackUnderflow, row .stackOverflow, row .memReadOutOfBounds,
    row .memWriteOutOfBounds, ?others⟩
  case precise =>
    rcases exec_cases h with ⟨c, -, rfl⟩ | ⟨-, hcompletes⟩
    · rfl
    · exact (hcompletes.not_faulted hs hf).elim
  case others =>
    rintro ⟨hf, hc | hc | hc⟩
    · exact (row .none).mp ⟨hf, hc⟩
    · exact (row .fetchOutOfBounds).mp ⟨hf, hc⟩
    · exact (row .illegalInstruction).mp ⟨hf, hc⟩

/-! ### Writers -/

/-- The writers of a register, in the spec's words. -/
theorem Completes.reg_writers (h : Completes s i t) (r : Reg) (hne : t.reg r ≠ s.reg r) :
    (∃ nn, i = .ldImm r nn ∨ i = .addImm r nn ∨ i = .rnd r nn) ∨
    (∃ y, i = .ldReg r y ∨ i = .or r y ∨ i = .and r y ∨ i = .xor r y) ∨
    (∃ y, i = .addReg r y ∨ i = .sub r y ∨ i = .subn r y) ∨ i = .shr r ∨ i = .shl r ∨ i = .ldFromDt r ∨
    (∃ x, i = .load x ∧ r.val < x.val) ∨
    (r = VF ∧ ((∃ x y, i = .addReg x y ∨ i = .sub x y ∨ i = .subn x y) ∨ (∃ x, i = .shr x ∨ i = .shl x) ∨
      ∃ x y n, i = .drw x y n)) := by
  rcases (h.reg r).resolve_left hne with hi | hi | ⟨x, rfl, hr⟩ | ⟨rfl, ⟨x, hi⟩ | ⟨x, y, n, rfl⟩⟩
  · rcases hi with ⟨nn, rfl | rfl | rfl⟩ | ⟨y, rfl | rfl | rfl | rfl⟩ | rfl <;> simp
  · rcases hi with ⟨y, rfl | rfl | rfl⟩ | rfl | rfl <;> simp
  · simpa using hr
  · rcases hi with ⟨y, rfl | rfl | rfl⟩ | rfl | rfl <;> simp
  · simp

/-- Settles O53: by what a completion writes, part by part; a fault writes the FSM and the cause alone. -/
theorem eachPartIsWrittenByItsInstructionsAlone : Obligations.EachPartIsWrittenByItsInstructionsAlone := by
  intro i s t h
  rcases exec_cases h with ⟨c, hc, rfl⟩ | ⟨-, hcompletes⟩
  · obtain ⟨hcause, hinstr⟩ := hc.instr
    refine ⟨fun r hne => (hne rfl).elim, fun hne => (hne rfl).elim, fun hne => (hne rfl).elim,
      fun hne => (hne rfl).elim, fun hne => (hne rfl).elim, fun hne => (hne rfl).elim, fun hne => (hne rfl).elim,
      fun hne => (hne rfl).elim, fun _ => .inr ⟨rfl, hcause, hinstr⟩, rfl, rfl, rfl, rfl, rfl, rfl, rfl, rfl⟩
  · refine ⟨hcompletes.reg_writers, hcompletes.px.resolve_left, hcompletes.stack.resolve_left,
      hcompletes.mem.resolve_left, hcompletes.I.resolve_left, hcompletes.dt.resolve_left,
      hcompletes.waitReg.resolve_left, fun hne => ?pc, fun hne => ?fsm, hcompletes.rest⟩
    case pc =>
      rcases hcompletes.pc.resolve_left hne with hi | ⟨nnn, rfl⟩ | ⟨nnn, rfl | rfl⟩ | hi
      · exact .inl hi
      · simp
      · simp
      · simp
      · exact .inr (.inr hi)
    case fsm =>
      obtain hwait := hcompletes.fsm.resolve_left (hne.resolve_right (not_not_intro hcompletes.faultCause))
      exact .inl ⟨hwait.1, hwait.2, hcompletes.faultCause⟩

/-- Settles O54: of the writers of a register, the load does not reach `VF`, the last register. -/
theorem vfIsWrittenByTheFlagInstructions : Obligations.VfIsWrittenByTheFlagInstructions := by
  intro i s t h hne
  obtain ⟨hreg, -⟩ := eachPartIsWrittenByItsInstructionsAlone i s t h
  rcases hreg VF hne with hi | hi | ⟨y, hi⟩ | hi | hi | hi | ⟨x, -, hx⟩ | ⟨-, hi | hi | hi⟩
  · exact .inr (.inr (.inr (.inl hi)))
  · exact .inr (.inr (.inr (.inr (.inl hi))))
  · exact .inl ⟨VF, y, hi⟩
  · exact .inr (.inl ⟨VF, .inl hi⟩)
  · exact .inr (.inl ⟨VF, .inr hi⟩)
  · exact .inr (.inr (.inr (.inr (.inr hi))))
  · exact absurd x.isLt (not_lt.mpr hx)
  · exact .inl hi
  · exact .inr (.inl hi)
  · exact .inr (.inr (.inl hi))

end Sys2Proof.Machine
end

section
/-! What a step keeps, packaged once: a property that every event's parts keep is kept by every step (10_state.md R33,
40_engine.md R90 to R99). -/

namespace Sys2Proof.Machine

variable {s t : State} {k r : Byte}

/-- What a `Tick` can answer (40_engine.md R90): in `Running`, a fault of the fetch, a word that is no instruction, or
the meaning of the instruction at `pc`. -/
theorem State.tick_next_cases (h : s.tick k r = .next t) :
    t = s ∨ (s.fsm = .awaitingKey ∧ t = s.acceptKey k) ∨
    (s.fsm = .running ∧ s.pc.toNat + 1 > 4095 ∧ t = s.raiseFault .fetchOutOfBounds) ∨
    (s.fsm = .running ∧ s.pc.toNat + 1 ≤ 4095 ∧ ∃ w,
      (wellFormedWord w = false ∧ t = ((s.sample k r).advance w).raiseFault .illegalInstruction) ∨
      ∃ i, decodeWord w = .ok i ∧ exec i ((s.sample k r).advance w) = .next t) := by
  rcases s.tick_cases k r with ⟨-, ht⟩ | ⟨-, -, ht⟩ | ⟨hf, -, ht⟩ | ⟨hf, hp, ht⟩ | ⟨hf, hp, ht⟩
  · exact .inl (Host.Outcome.next.inj (h.symm.trans ht))
  · exact .inl (Host.Outcome.next.inj (h.symm.trans ht))
  · exact .inr (.inl ⟨hf, Host.Outcome.next.inj (h.symm.trans ht)⟩)
  · exact .inr (.inr (.inl ⟨hf, hp, Host.Outcome.next.inj (h.symm.trans ht)⟩))
  · refine .inr (.inr (.inr ⟨hf, hp, wordOfBytes (s.readMem s.pc.toNat) (s.readMem (s.pc.toNat + 1)), ?_⟩))
    rw [h] at ht
    rcases (s.sample k r).runWord_cases _ with ⟨i, hi, hrun⟩ | ⟨e, he, hrun⟩
    · exact .inr ⟨i, hi, (ht.trans hrun).symm⟩
    · refine .inl ⟨?_, Host.Outcome.next.inj (ht.trans hrun)⟩
      rw [← Bool.not_eq_true, ← decodes_iff_wellFormedWord]
      rintro ⟨i, hi⟩
      rw [hi] at he; cases he

/-- A state whose next `Tick` fetches an instruction: running, the load window closed, `pc` in the image. -/
structure State.Fetches (s : State) : Prop where
  fsm : s.fsm = .running
  window : s.loadWindow = false
  pc : s.pc.toNat ≤ 4094

/-- The advance of such a state does not wrap. -/
theorem State.Fetches.advance_pc (h : s.Fetches) (w : Word) : (s.advance w).pc.toNat = s.pc.toNat + 2 := by
  have := h.pc
  rw [State.advance_pc, BitVec.toNat_add]; simp; omega

/-- A property that each part of each event keeps. -/
structure KeptByEvents (P : State → Prop) : Prop where
  /-- The timer, the driver's fields and what a load returned do not matter to it. -/
  inert : ∀ (s : State) (dt : Byte) (pending : List Event) (key rnd : Byte) (draws : Nat) (loadError : Bool), P s →
    P { s with dt := dt, pending := pending, key := key, rnd := rnd, draws := draws, loadError := loadError }
  reset : ∀ s, P s → P s.resetEngine
  load : ∀ (s : State) (bytes : List Byte), Config.programBase + bytes.length ≤ Config.imageBytes → P s →
    P (s.loadBytes bytes)
  close : ∀ s, P s → P s.closeLoadWindow
  accept : ∀ (s : State) (k : Byte), s.fsm = .awaitingKey → P s → P (s.acceptKey k)
  fetchFault : ∀ s : State, s.fsm = .running → s.loadWindow = false → s.pc.toNat + 1 > 4095 → P s →
    P (s.raiseFault .fetchOutOfBounds)
  illegal : ∀ (s : State) (w : Word), s.Fetches → wellFormedWord w = false → P s →
    P ((s.advance w).raiseFault .illegalInstruction)
  fault : ∀ (s : State) (w : Word) (i : Instr) (c : FaultCause), s.Fetches → decodeWord w = .ok i →
    FaultsWith i (s.advance w) c → P s → P ((s.advance w).raiseFault c)
  complete : ∀ (s t : State) (w : Word) (i : Instr), s.Fetches → decodeWord w = .ok i →
    Completes (s.advance w) i t → P s → P t

namespace KeptByEvents

variable {P : State → Prop} (hP : KeptByEvents P)
include hP

theorem tick (hw : s.loadWindow = false) (hs : P s) (h : s.tick k r = .next t) : P t := by
  have hsample : P (s.sample k r) := hP.inert s s.dt s.pending k r s.draws s.loadError hs
  rcases State.tick_next_cases h with rfl | ⟨hf, rfl⟩ | ⟨hf, hp, rfl⟩ | ⟨hf, hp, w, ⟨hill, rfl⟩ | ⟨i, hi, hexec⟩⟩
  · exact hs
  · exact hP.accept s k hf hs
  · exact hP.fetchFault s hf hw hp hs
  · exact hP.illegal _ w ⟨hf, hw, Nat.le_of_succ_le_succ hp⟩ hill hsample
  · have hfetches : (s.sample k r).Fetches := ⟨hf, hw, Nat.le_of_succ_le_succ hp⟩
    rcases exec_cases hexec with ⟨c, hc, rfl⟩ | ⟨-, hcompletes⟩
    · exact hP.fault _ w i c hfetches hi hc hsample
    · exact hP.complete _ t w i hfetches hi hcompletes hsample

theorem timerTick (hs : P s) : P s.timerTick := by
  unfold State.timerTick
  split
  · exact hP.inert s (s.dt - 1) s.pending s.key s.rnd s.draws s.loadError hs
  · exact hs

theorem loadProgram {bytes : List Byte} (hs : P s) (h : s.loadProgram bytes = .next t) : P t := by
  have report : ∀ u b, P u → P (u.setLoadError b) := fun u b => hP.inert u u.dt u.pending u.key u.rnd u.draws b
  rcases s.loadProgram_cases bytes with ⟨-, hl⟩ | ⟨-, -, hl⟩ | ⟨-, hfits, hl⟩
  · rw [h] at hl; cases hl
  · rw [Host.Outcome.next.inj (h.symm.trans hl)]; exact report s true hs
  · rw [Host.Outcome.next.inj (h.symm.trans hl)]; exact report _ false (hP.load s bytes hfits hs)

theorem perform {e : Event} (hs : P s) (h : s.perform e = .next t) : P t := by
  cases e with
  | reset => rw [← Host.Outcome.next.inj h]; exact hP.reset s hs
  | loadProgram bytes => exact hP.loadProgram hs h
  | tick k r => exact hP.tick rfl (hP.close s hs) h
  | timerTick => rw [← Host.Outcome.next.inj h]; exact hP.timerTick hs

/-- What every event keeps every step keeps, since a step is one event. -/
theorem step (hs : P s) (h : step s = .next t) : P t := by
  rcases step_cases s with ⟨-, hstep⟩ | ⟨e, rest, -, hstep⟩
  · exact hP.perform (hP.inert s s.dt s.pending s.key s.rnd (s.draws + 1) s.loadError hs) (hstep.symm.trans h)
  · exact hP.perform (hP.inert s s.dt rest s.key s.rnd s.draws s.loadError hs) (hstep.symm.trans h)

end KeptByEvents

end Sys2Proof.Machine
end

section
/-! The four invariants (20_memory.md R50, 10_state.md R26, 41_flow.md R110, R117, 60_exceptions.md R181). -/

namespace Sys2Proof.Machine

variable {s t : State} {i : Instr}

theorem memCanonical_kept : KeptByEvents State.MemCanonical where
  inert _ _ _ _ _ _ _ h := h
  reset _ _ := Memory.wf_nil
  load _ _ hfits h := Memory.wf_writeBytes h hfits
  close _ h := h
  accept _ _ _ h := h
  fetchFault _ _ _ _ h := h
  illegal _ _ _ _ h := h
  fault _ _ _ _ _ _ _ h := h
  complete s t w i hs hi hcompletes h := by
    cases hcompletes
    case store hm _ => exact hm h
    all_goals exact h

/-- Settles O56: of what a step does, a load that fits and the two storing instructions write the image, each byte
inside it, and a `Reset` empties the list. -/
theorem everyStepKeepsTheImageCanonical : Obligations.EveryStepKeepsTheImageCanonical :=
  fun _ _ hs h => memCanonical_kept.step hs h

theorem controlOk_kept (p : Params) : KeptByEvents (fun s => s.ControlOk ∧ s.params = p) where
  inert _ _ _ _ _ _ _ h := ⟨⟨h.1.depth, h.1.cause, h.1.window⟩, h.2⟩
  reset s h := ⟨⟨Nat.zero_le _, by simp [State.resetEngine, State.launch], fun hf => (hf rfl).elim⟩, h.2⟩
  load _ _ _ h := ⟨⟨h.1.depth, h.1.cause, h.1.window⟩, h.2⟩
  close _ h := ⟨⟨h.1.depth, h.1.cause, fun _ => rfl⟩, h.2⟩
  accept s k hf h := by
    have hcause : s.faultCause = .none := h.1.cause.mpr (by simp [hf])
    exact ⟨⟨h.1.depth, by simp [hcause], fun hne => (hne rfl).elim⟩, h.2⟩
  fetchFault s _ hw _ h := ⟨⟨h.1.depth, by simp, fun _ => hw⟩, h.2⟩
  illegal s w hs _ h := ⟨⟨h.1.depth, by simp, fun _ => hs.window⟩, h.2⟩
  fault s w i c hs _ hc h := ⟨⟨h.1.depth, by simp [hc.instr.1], fun _ => hs.window⟩, h.2⟩
  complete s t w i hs hi hcompletes h := by
    have hlive : (s.advance w).Live := by simp [State.Live, hs.fsm]
    have hcause : s.faultCause = .none := h.1.cause.mpr (by simp [hs.fsm])
    obtain ⟨-, -, -, -, -, hwindow, -, hparams⟩ := hcompletes.rest
    refine ⟨⟨?depth, ?cause, fun _ => hwindow.trans hs.window⟩, hparams.trans h.2⟩
    case cause => exact iff_of_true (hcompletes.faultCause.trans hcause) (hcompletes.not_faulted hlive)
    case depth =>
      have hdepth := h.1.depth
      cases hcompletes
      case ret v rest hstack =>
        have : s.stack = v :: rest := hstack
        rw [this] at hdepth
        exact (Nat.le_succ _).trans hdepth
      case call nnn hroom => exact hroom
      all_goals exact hdepth

/-- Settles O57: the stack grows by a call with room alone, each fault sets cause and FSM together, and what leaves
`Running` is a `Tick`, which has closed the load window. -/
theorem everyStepKeepsTheControlState : Obligations.EveryStepKeepsTheControlState :=
  fun s _ hs h => (controlOk_kept s.params).step ⟨hs, rfl⟩ h

theorem addressesOk_kept : KeptByEvents State.AddressesOk where
  inert _ _ _ _ _ _ _ h := ⟨h.pc, h.stack⟩
  reset s _ := ⟨by simp [State.resetEngine, State.launch], by simp [State.resetEngine, State.launch]⟩
  load _ _ _ h := ⟨h.pc, h.stack⟩
  close _ h := ⟨h.pc, h.stack⟩
  accept _ _ _ h := ⟨h.pc, h.stack⟩
  fetchFault _ _ _ _ h := ⟨h.pc, h.stack⟩
  illegal s w hs _ h := ⟨(hs.advance_pc w).trans_le (by have := hs.pc; omega), h.stack⟩
  fault s w _ _ hs _ _ h := ⟨(hs.advance_pc w).trans_le (by have := hs.pc; omega), h.stack⟩
  complete s t w i hs hi hcompletes h := by
    have hadvance : (s.advance w).pc.toNat ≤ 0x1000 := (hs.advance_pc w).trans_le (by have := hs.pc; omega)
    cases hcompletes
    case jump a ha _ =>
      refine ⟨?_, h.stack⟩
      rcases ha with ha | rfl | rfl
      · exact ha
      · exact hadvance.trans (by omega)
      · rw [State.setPc_pc, BitVec.toNat_add]; simp only [BitVec.reduceToNat]; omega
    case ret v rest hstack =>
      have hbound : ∀ a ∈ v :: rest, a.toNat ≤ 0x1000 := hstack ▸ h.stack
      exact ⟨(hbound v List.mem_cons_self).trans (by omega), fun a ha => hbound a (List.mem_cons_of_mem v ha)⟩
    case call nnn hroom =>
      refine ⟨?_, fun a ha => ?_⟩
      · have := nnn.isLt; rw [State.setPc_pc, addrOperand_toNat]; omega
      · rcases List.mem_cons.mp ha with rfl | ha
        · exact hadvance
        · exact h.stack a ha
    all_goals exact ⟨hadvance.trans (by omega), h.stack⟩

/-- Settles O58: an instruction runs with `pc` at most 4096, which is what a call pushes and a skip passes; the
longest jump is `JP V0`. -/
theorem everyStepKeepsPcAndReturnAddressesBounded : Obligations.EveryStepKeepsPcAndReturnAddressesBounded :=
  fun _ _ hs h => addressesOk_kept.step hs h

/-- Without a cause there is nothing to diagnose. -/
theorem State.DiagnosisOk.of_none (h : s.faultCause = .none) : s.DiagnosisOk :=
  ⟨fun hc => (hc h).elim, by simp only [State.Diagnosis, h]⟩

/-- Outside `Faulted` there is no cause. -/
theorem State.DiagnosisOk.cause_none (h : s.DiagnosisOk) (hs : s.Live) : s.faultCause = .none :=
  by_contra fun hc => hs (h.faulted hc)

/-- The condition an instruction met is what its cause's diagnosis says, when the word it was decoded from stands in
`lastInstr`. -/
theorem FaultsWith.diagnosis {c : FaultCause} (h : FaultsWith i s c) (hi : decodeWord s.lastInstr = .ok i) :
    (s.raiseFault c).Diagnosis := by
  cases c with
  | none | fetchOutOfBounds | illegalInstruction => exact h.elim
  | stackUnderflow => obtain ⟨rfl, hs⟩ := h; exact ⟨hi, hs⟩
  | stackOverflow => obtain ⟨⟨nnn, rfl⟩, hs⟩ := h; exact ⟨⟨nnn, hi⟩, hs⟩
  | memReadOutOfBounds =>
    rcases h with ⟨x, y, n, rfl, hout⟩ | ⟨x, rfl, hout⟩
    · exact .inl ⟨x, y, n, hi, hout⟩
    · exact .inr ⟨x, hi, hout⟩
  | memWriteOutOfBounds =>
    rcases h with ⟨x, rfl, hout⟩ | ⟨x, rfl, hout⟩
    · exact .inl ⟨x, hi, hout⟩
    · exact .inr ⟨x, hi, hout⟩

theorem diagnosisOk_kept : KeptByEvents State.DiagnosisOk where
  inert _ _ _ _ _ _ _ h := ⟨h.faulted, h.diagnosis⟩
  reset _ _ := .of_none rfl
  load _ _ _ h := ⟨h.faulted, h.diagnosis⟩
  close _ h := ⟨h.faulted, h.diagnosis⟩
  accept s k hf h := .of_none (h.cause_none (by simp [State.Live, hf]))
  fetchFault _ _ _ hp _ := ⟨fun _ => rfl, hp⟩
  illegal _ _ _ hw _ := ⟨fun _ => rfl, hw⟩
  fault _ _ _ _ _ hi hc _ := ⟨fun _ => rfl, hc.diagnosis hi⟩
  complete _ _ _ _ hs _ hcompletes h :=
    .of_none (hcompletes.faultCause.trans (h.cause_none (by simp [State.Live, hs.fsm])))

/-- Settles O59: a cause is set in a fault alone, together with `Faulted` and on the state that meets its condition,
and a faulted state changes in nothing the diagnosis reads. -/
theorem everyStepKeepsTheDiagnosisTrue : Obligations.EveryStepKeepsTheDiagnosisTrue :=
  fun _ _ hs h => diagnosisOk_kept.step hs h

/-- Settles O60: the image is the empty list, the stack is empty, `pc` is `0x200` and there is no cause. -/
theorem resetMeetsTheInvariants : Obligations.ResetMeetsTheInvariants := by
  intro p
  refine ⟨Memory.wf_nil, ⟨Nat.zero_le _, ?cause, fun hf => (hf rfl).elim⟩, ⟨?pc, ?stack⟩, .of_none rfl⟩
  case cause => exact iff_of_true rfl (by simp [State.launch])
  case pc => simp [State.launch]
  case stack => simp [State.launch]

end Sys2Proof.Machine
end

section
/-! The events (10_state.md R33 to R35, 40_engine.md R90 to R99): what a step performs, what a `Tick` runs. -/

namespace Sys2Proof.Machine

variable {s t : State} {k r : Byte} {w : Word} {i : Instr}

/-- A frame that allows more parts. -/
theorem Frame.widen {regs : List Reg} {parts parts' : List Part} (h : Frame regs parts s t) (hp : parts ⊆ parts') :
    Frame regs parts' s t :=
  h.mono (List.Subset.refl regs) hp

theorem step_of_pending {e : Event} {rest : List Event} (h : s.pending = e :: rest) :
    step s = (s.setPending rest).perform e := by
  simp only [step, State.takeEvent, h]

theorem step_of_no_pending (h : s.pending = []) :
    step s = s.countDraw.perform (.tick (Config.freeKey s.draws) (Config.freeRnd s.draws)) := by
  simp only [step, State.takeEvent, h]

/-- Settles O10: `takeEvent` answers the oldest event or, with none, a `Tick` of free inputs. -/
theorem stepPerformsTheOldestEvent : Obligations.StepPerformsTheOldestEvent :=
  fun _ => ⟨fun _ _ h => step_of_pending h, fun h => step_of_no_pending h⟩

/-! ### Tick -/

theorem wordOfBytes_toNat (hi lo : Byte) : (wordOfBytes hi lo).toNat = hi.toNat * 256 + lo.toNat := by
  have := lo.isLt
  rw [wordOfBytes, BitVec.toNat_append, ← Nat.shiftLeft_add_eq_or_of_lt this, Nat.shiftLeft_eq]

/-- The word that a `Tick` fetches, given as a number. -/
theorem eq_wordOfBytes {hi lo : Byte} (h : w.toNat = hi.toNat * 256 + lo.toNat) : w = wordOfBytes hi lo :=
  BitVec.eq_of_toNat_eq (h.trans (wordOfBytes_toNat hi lo).symm)

theorem State.tick_of_fetch (hf : s.fsm = .running) (hp : s.pc.toNat ≤ 4094)
    (hw : w.toNat = (s.readMem s.pc.toNat).toNat * 256 + (s.readMem (s.pc.toNat + 1)).toNat) :
    s.tick k r = (s.sample k r).runWord w := by
  have hfetch : s.fetch = .ok w := by rw [State.fetch, if_neg (by omega), ← eq_wordOfBytes hw]
  simp only [State.tick, hf, hfetch]

/-- A `Tick` in `Running` is `exec` of the instruction at `pc`, on the advanced state. -/
theorem State.tick_of_decode (hf : s.fsm = .running) (hp : s.pc.toNat ≤ 4094)
    (hw : w.toNat = (s.readMem s.pc.toNat).toNat * 256 + (s.readMem (s.pc.toNat + 1)).toNat)
    (hi : decodeWord w = .ok i) : s.tick k r = exec i ((s.sample k r).advance w) := by
  rw [State.tick_of_fetch hf hp hw, State.runWord, decodeBytes_word, hi]

theorem State.tick_of_no_row (hf : s.fsm = .running) (hp : s.pc.toNat ≤ 4094)
    (hw : w.toNat = (s.readMem s.pc.toNat).toNat * 256 + (s.readMem (s.pc.toNat + 1)).toNat)
    (hrow : wellFormedWord w = false) :
    s.tick k r = .next (((s.sample k r).advance w).raiseFault .illegalInstruction) := by
  rw [State.tick_of_fetch hf hp hw]
  rcases (s.sample k r).runWord_cases w with ⟨i, hi, -⟩ | ⟨-, -, hrun⟩
  · have := decodes_iff_wellFormedWord.mp ⟨i, hi⟩
    simp [hrow] at this
  · exact hrun

theorem State.tick_of_pc_out (hf : s.fsm = .running) (hp : s.pc.toNat ≥ 4095) :
    s.tick k r = .next (s.raiseFault .fetchOutOfBounds) := by
  have hfetch : s.fetch = .error .fetchOutOfBounds := if_pos (by omega)
  simp only [State.tick, hf, hfetch]

theorem State.tick_of_faulted (hf : s.fsm = .faulted) : s.tick k r = .next s := by
  simp only [State.tick, hf]

theorem State.tick_of_awaiting_zero (hf : s.fsm = .awaitingKey) : s.tick 0x00 r = .next s := by
  simp only [State.tick, hf, if_true]

theorem State.tick_of_awaiting_key (hf : s.fsm = .awaitingKey) (hk : k ≠ 0x00) :
    s.tick k r = .next (s.acceptKey k) := by
  simp only [State.tick, hf, if_neg hk]

/-- Settles O11: the word of the two bytes is the one given, and the state that `exec` starts from is the one written
out. -/
theorem stepRunsTheDecodedInstruction : Obligations.StepRunsTheDecodedInstruction := by
  intro s w i hf hp hw hi
  constructor
  · intro k r rest h
    rw [step_of_pending h]
    exact State.tick_of_decode (s := (s.setPending rest).closeLoadWindow) hf hp hw hi
  · intro h
    rw [step_of_no_pending h]
    exact State.tick_of_decode (s := s.countDraw.closeLoadWindow) hf hp hw hi

/-- Settles O12: the fetch fails before `pc` is advanced, and the fault is raised on the state as it was. -/
theorem fetchPastTheImageFaults : Obligations.FetchPastTheImageFaults :=
  fun s _ _ hf hp => ⟨_, State.tick_of_pc_out hf hp, s.raiseFault_taken _⟩

/-- Settles O13: a word of no row does not decode, so the fault is raised on the advanced state. -/
theorem wordOfNoRowFaults : Obligations.WordOfNoRowFaults := by
  intro s k r w hf hp hw hrow
  refine ⟨_, State.tick_of_no_row hf hp hw hrow, rfl, rfl, rfl, rfl, ?_⟩
  exact ((s.sample_frame k r).widen (by simp)).trans
    ((((s.sample k r).advance_frame w).widen (by simp)).trans
      ((State.raiseFault_taken _ _).rest.widen (by simp)))

/-- Settles O14: with key 0 the `Tick` answers the state it found, with another key the key accepted. -/
theorem awaitingKeyEndsOnNonzeroKeyOnly : Obligations.AwaitingKeyEndsOnNonzeroKeyOnly := by
  intro s k r hf
  refine ⟨?zero, fun hk => ⟨_, State.tick_of_awaiting_key hf hk, ?reg, rfl, s.acceptKey_frame k⟩⟩
  case zero => rintro rfl; exact State.tick_of_awaiting_zero hf
  case reg => rw [State.reg_acceptKey, if_pos rfl]

/-- A `Tick` answers a next state, since every instruction does. -/
theorem State.tick_answers (s : State) (k r : Byte) : ∃ t, s.tick k r = .next t := by
  rcases s.tick_cases k r with ⟨-, h⟩ | ⟨-, -, h⟩ | ⟨-, -, h⟩ | ⟨-, -, h⟩ | ⟨-, -, h⟩
  case inr.inr.inr.inr =>
    rw [h]
    rcases (s.sample k r).runWord_cases (wordOfBytes (s.readMem s.pc.toNat) (s.readMem (s.pc.toNat + 1))) with
      ⟨i, -, hrun⟩ | ⟨-, -, hrun⟩
    · rw [hrun]; exact everyInstructionAnswersANextState i _
    · exact ⟨_, hrun⟩
  all_goals exact ⟨_, h⟩

/-- A `Tick` performs no event but itself. -/
theorem State.tick_pending (h : s.tick k r = .next t) : t.pending = s.pending := by
  rcases State.tick_next_cases h with rfl | ⟨-, rfl⟩ | ⟨-, -, rfl⟩ | ⟨-, -, w, ⟨-, rfl⟩ | ⟨i, -, hexec⟩⟩
  case inr.inr.inr.inr =>
    rcases exec_cases hexec with ⟨c, -, rfl⟩ | ⟨-, hcompletes⟩
    · rfl
    · exact hcompletes.rest.2.1
  all_goals rfl

/-- Settles O17: the strobes stand in `pending` with the `Tick` first, and the `Tick` leaves the other where it is. -/
theorem tickBeforeTimerTickOfOneCycle : Obligations.TickBeforeTimerTickOfOneCycle := by
  intro s t k r hnone h
  have hraised : (s.raiseStrobes (some (k, r)) true).pending = [.tick k r, .timerTick] := by
    simp [State.raiseStrobes, hnone]
  have hleft : t.pending = [.timerTick] := State.tick_pending h
  exact ⟨(step_of_pending hraised).trans h, step_of_pending hleft⟩

/-! ### TimerTick -/

theorem State.timerTick_of_faulted (hf : s.fsm = .faulted) : s.timerTick = s := by
  simp only [State.timerTick, hf, ne_eq, not_true_eq_false, false_and, if_false]

theorem State.timerTick_dt (hs : s.Live) : s.timerTick.dt.toNat = s.dt.toNat - 1 := by
  unfold State.timerTick
  by_cases hdt : s.dt = 0x00
  · simp [hdt]
  · have hpos : s.dt.toNat ≠ 0 := fun h => hdt (BitVec.eq_of_toNat_eq h)
    have := s.dt.isLt
    rw [if_pos ⟨hs, hdt⟩, State.setDt_dt, BitVec.toNat_sub]; simp; omega

theorem State.timerTick_frame (s : State) : Frame [] [.dt] s s.timerTick := by
  unfold State.timerTick
  split
  · exact s.setDt_frame _
  · exact Frame.refl s _ _

/-- Settles O16: by induction on the number of ticks; no tick changes the FSM. -/
theorem timerTicksCountDownToZero : Obligations.TimerTicksCountDownToZero := by
  intro n s hs
  induction n with
  | zero => exact ⟨rfl, Frame.refl s _ _⟩
  | succ n ih =>
    obtain ⟨hdt, hframe⟩ := ih
    have hlive : (State.timerTick^[n] s).Live := (hframe.fsm (by decide)).trans_ne hs
    rw [Function.iterate_succ_apply']
    exact ⟨by rw [State.timerTick_dt hlive, hdt]; omega, hframe.trans (State.timerTick_frame _)⟩

/-! ### Reset and LoadProgram -/

/-- Settles O8: the step is `resetEngine`, which writes every item. -/
theorem resetEventSetsEveryItem : Obligations.ResetEventSetsEveryItem := by
  intro s rest h
  refine ⟨_, step_of_pending h, rfl, rfl, rfl, fun r => ?reg, rfl, rfl, rfl, rfl, rfl, fun x y => ?px,
    fun _ => rfl, rfl, rfl, rfl, rfl⟩
  case reg => exact Vector.getElem_replicate r.isLt
  case px => exact Display.get_blank x y

theorem Memory.read_writeBytes {font : Font} {m : Memory} {a : Nat} {bs : List Byte} (h : m.wf font = true)
    (ha : a + bs.length ≤ Config.imageBytes) (x : Nat) :
    (m.writeBytes font a bs).read font x = if a ≤ x then bs[x - a]?.getD (m.read font x) else m.read font x := by
  induction bs generalizing m a with
  | nil => simp [Memory.writeBytes]
  | cons b bs ih =>
    rw [List.length_cons] at ha
    rw [Memory.writeBytes, ih (Memory.wf_write h (by omega) b) (by omega), Memory.read_write h]
    rcases lt_trichotomy x a with hx | rfl | hx
    · rw [if_neg (by omega), if_neg (by omega), if_neg (by omega)]
    · simp
    · rw [if_pos (by omega), if_neg (by omega), if_pos (by omega), show x - a = x - (a + 1) + 1 by omega,
        List.getElem?_cons_succ]

theorem State.readMem_loadBytes (h : s.MemCanonical) {bytes : List Byte}
    (hlen : bytes.length ≤ 3584) (a : Nat) :
    (s.loadBytes bytes).readMem a = if 0x200 ≤ a then bytes[a - 0x200]?.getD (s.readMem a) else s.readMem a :=
  have hfits : 0x200 + bytes.length ≤ 4096 := by omega
  Memory.read_writeBytes (a := 0x200) h hfits a

theorem State.loadProgram_of_fits {bytes : List Byte} (hw : s.loadWindow = true) (h : bytes.length ≤ 3584) :
    s.loadProgram bytes = .next ((s.loadBytes bytes).setLoadError false) := by
  have hfits : programFits bytes = true := decide_eq_true (show 0x200 + bytes.length ≤ 4096 by omega)
  simp [State.loadProgram, hw, hfits]

theorem State.loadProgram_of_too_long {bytes : List Byte} (hw : s.loadWindow = true) (h : 3584 < bytes.length) :
    s.loadProgram bytes = .next (s.setLoadError true) := by
  have hfits : programFits bytes = false := decide_eq_false (show ¬ 0x200 + bytes.length ≤ 4096 by omega)
  simp [State.loadProgram, hw, hfits]

theorem State.loadProgram_of_late {bytes : List Byte} (hw : s.loadWindow = false) :
    s.loadProgram bytes = .refused .loadAfterFirstTick := if_pos hw

/-- Settles O9: the three branches of the load; the copy reads back by the law of a sequence of writes. -/
theorem loadProgramCopiesOrIsRejected : Obligations.LoadProgramCopiesOrIsRejected := by
  intro s bytes
  refine ⟨fun hm hw hlen => ⟨_, State.loadProgram_of_fits hw hlen, ?frame, rfl, fun j hj => ?copied, fun a ha => ?rest⟩,
    fun hw hlen => ⟨_, State.loadProgram_of_too_long hw hlen, s.setLoadError_frame true, rfl⟩,
    fun hw => State.loadProgram_of_late hw⟩
  case frame =>
    exact ((s.loadBytes_frame bytes).widen (by simp)).trans
      (((s.loadBytes bytes).setLoadError_frame false).widen (by simp))
  case copied =>
    refine (State.readMem_loadBytes hm hlen (0x200 + j)).trans ?_
    rw [if_pos (by omega), Nat.add_sub_cancel_left, List.getElem?_eq_getElem hj, Option.getD_some]
  case rest =>
    refine (State.readMem_loadBytes hm hlen a).trans ?_
    split
    · rw [List.getElem?_eq_none (by omega), Option.getD_none]
    · rfl

/-- Settles O51: by the event the step performs; of the four only a load can be refused, and with the window open it
answers a next state whether it fits or not. -/
theorem stepStopsOnlyAtALateLoad : Obligations.StepStopsOnlyAtALateLoad := by
  intro s
  cases hp : s.pending with
  | nil =>
    obtain ⟨t, ht⟩ := s.countDraw.closeLoadWindow.tick_answers (Config.freeKey s.draws) (Config.freeRnd s.draws)
    exact .inl ⟨⟨t, (step_of_no_pending hp).trans ht⟩, by simp⟩
  | cons e rest =>
    have hstep := step_of_pending hp
    cases e with
    | reset => exact .inl ⟨⟨_, hstep⟩, by simp⟩
    | timerTick => exact .inl ⟨⟨_, hstep⟩, by simp⟩
    | tick k r =>
      obtain ⟨t, ht⟩ := (s.setPending rest).closeLoadWindow.tick_answers k r
      exact .inl ⟨⟨t, hstep.trans ht⟩, by simp⟩
    | loadProgram bytes =>
      rcases (s.setPending rest).loadProgram_cases bytes with ⟨hw, hl⟩ | ⟨hw, -, hl⟩ | ⟨hw, -, hl⟩
      · exact .inr ⟨⟨bytes, rest, rfl⟩, hw, hstep.trans hl⟩
      · exact .inl ⟨⟨_, hstep.trans hl⟩, fun hlate => by simp [hlate.2] at hw⟩
      · exact .inl ⟨⟨_, hstep.trans hl⟩, fun hlate => by simp [hlate.2] at hw⟩

theorem State.closeLoadWindow_of_closed (hw : s.loadWindow = false) : s.closeLoadWindow = s := by
  rw [State.closeLoadWindow, ← hw]

/-- A faulted engine with its load window closed performs no event but a `Reset`. -/
theorem State.perform_of_faulted {e : Event} (hf : s.fsm = .faulted) (hw : s.loadWindow = false) (he : e ≠ .reset)
    (h : s.perform e = .next t) : t = s := by
  cases e with
  | reset => exact (he rfl).elim
  | loadProgram bytes => cases (State.loadProgram_of_late hw).symm.trans h
  | tick k r =>
    rw [State.perform, State.closeLoadWindow_of_closed hw, State.tick_of_faulted hf] at h
    exact (Host.Outcome.next.inj h).symm
  | timerTick => rw [← Host.Outcome.next.inj h, State.timerTick_of_faulted hf]

/-- Settles O15: in `Faulted` both ticks answer the state they found, and a load finds its window closed. -/
theorem faultedIsLeftByResetAlone : Obligations.FaultedIsLeftByResetAlone := by
  intro s hf
  refine ⟨fun k r => State.tick_of_faulted hf, State.timerTick_of_faulted hf, fun hw hreset t h => ?_⟩
  rcases step_cases s with ⟨-, hstep⟩ | ⟨e, rest, hp, hstep⟩
  · rw [State.perform_of_faulted (s := s.countDraw) hf hw (by simp) (hstep.symm.trans h)]
    exact s.countDraw_frame.widen (by simp)
  · have he : e ≠ .reset := fun he => hreset rest (he ▸ hp)
    rw [State.perform_of_faulted (s := s.setPending rest) hf hw he (hstep.symm.trans h)]
    exact (s.setPending_frame rest).widen (by simp)

/-! ### Observation -/

/-- Settles O18: the flat index is split again by 64; the codes are read off the two tables. -/
theorem observationShowsTheState : Obligations.ObservationShowsTheState := by
  intro s
  refine ⟨fun x y index hindex => ?render, ⟨rfl, fun _ => rfl, rfl, rfl, rfl, rfl, rfl⟩, ?fsm, ?cause⟩
  case render =>
    have hx : Fin.ofNat 64 index.val = x := by ext; simp only [Fin.val_ofNat]; omega
    have hy : Fin.ofNat 32 (index.val / 64) = y := by ext; simp only [Fin.val_ofNat]; omega
    rw [State.render, hx, hy]
  case fsm => cases h : s.fsm <;> simp [State.inspect, h, Fsm.code]
  case cause => cases h : s.faultCause <;> simp [State.inspect, h, FaultCause.code]

end Sys2Proof.Machine
end

section
/-! The flag-writing instructions (42_alu.md R128, R135 to R139): the flag goes into `VF` first, and the result is
computed from the registers as they then are. -/

namespace Sys2Proof.Machine

variable {s : State} {i : Instr} {x y : Reg} {flag : Byte} {result : State → Byte}

/-- An instruction that answers a flag and a result. -/
theorem flags_of_exec (h : exec i s = .next (s.flagThenResult x flag result)) :
    ∃ t, exec i s = .next t ∧ Frame [x, VF] [] s t ∧ t.reg x = result (s.setReg VF flag) ∧
      (x ≠ VF → t.reg VF = flag) :=
  ⟨_, h, s.flagThenResult_frame x flag result, by rw [State.reg_flagThenResult, if_pos rfl],
    fun hx => by rw [State.reg_flagThenResult, if_neg (Ne.symm hx), if_pos rfl]⟩

/-- An instruction whose result is computed from two registers: one that is `VF` is read as the flag (the spec's
decision D8). -/
theorem flags_of_exec_two {op : Byte → Byte → Byte}
    (h : exec i s = .next (s.flagThenResult x flag fun t => op (t.reg x) (t.reg y))) :
    ∃ t, exec i s = .next t ∧ Frame [x, VF] [] s t ∧
      (x ≠ VF → y ≠ VF → t.reg VF = flag ∧ t.reg x = op (s.reg x) (s.reg y)) ∧
      (x ≠ VF → y = VF → t.reg VF = flag ∧ t.reg x = op (s.reg x) flag) ∧
      (x = VF → y ≠ VF → t.reg VF = op flag (s.reg y)) ∧
      (x = VF → y = VF → t.reg VF = op flag flag) := by
  obtain ⟨t, hexec, hframe, hreg, hflag⟩ := flags_of_exec h
  refine ⟨t, hexec, hframe, fun hx hy => ⟨hflag hx, ?_⟩, fun hx hy => ⟨hflag hx, ?_⟩, fun hx hy => ?_, fun hx hy => ?_⟩
  · rw [hreg, State.reg_setReg_other _ hx, State.reg_setReg_other _ hy]
  · rw [hreg, State.reg_setReg_other _ hx, hy, State.reg_setReg_same]
  · rw [← hx, hreg, State.reg_setReg_other _ hy, hx, State.reg_setReg_same]
  · rw [← hx, hreg, hx, hy, State.reg_setReg_same]

theorem carryFlag_toNat (a b : Byte) : (carryFlag a b).toNat = if a.toNat + b.toNat > 255 then 1 else 0 := by
  unfold carryFlag; split <;> rfl

theorem borrowFlag_toNat (a b : Byte) : (borrowFlag a b).toNat = if b.toNat > a.toNat then 1 else 0 := by
  unfold borrowFlag; split <;> rfl

theorem shrFlag_toNat (a : Byte) : (shrFlag a).toNat = a.toNat % 2 := by
  rw [shrFlag, BitVec.toNat_and]; exact Nat.and_one_is_mod _

theorem shlFlag_toNat (a : Byte) : (shlFlag a).toNat = a.toNat / 8 := by
  rw [shlFlag, BitVec.toNat_ushiftRight, Nat.shiftRight_eq_div_pow]

/-- A difference of two bytes, in the spec's words. -/
theorem toNat_sub_byte (a b : Byte) : (a - b).toNat = (a.toNat + 256 - b.toNat) % 256 := by
  rw [BitVec.toNat_sub]; have := b.isLt; omega

/-- Settles O22: the sum of two bytes is modulo 256; twice a carry is not. -/
theorem addSetsCarry : Obligations.AddSetsCarry := by
  intro x y s
  obtain ⟨t, hexec, hframe, hplain, hy, hx, hxy⟩ := flags_of_exec_two (op := (· + ·)) (exec_addReg s x y)
  have hcarry := carryFlag_toNat (s.reg x) (s.reg y)
  refine ⟨t, hexec, hframe, fun h h' => ?_, fun h h' => ?_, fun h h' => ?_, fun h h' => ?_⟩
  · obtain ⟨hvf, hr⟩ := hplain h h'
    exact ⟨hvf ▸ hcarry, hr ▸ BitVec.toNat_add _ _⟩
  · obtain ⟨hvf, hr⟩ := hy h h'
    exact ⟨hvf ▸ hcarry, by rw [hr, BitVec.toNat_add, hcarry]⟩
  · rw [hx h h', BitVec.toNat_add, hcarry]
  · rw [hxy h h', BitVec.toNat_add, hcarry]; split <;> rfl

/-- Settles O23: a difference is taken modulo 256; that of the flag with itself is 0. -/
theorem subSetsBorrow : Obligations.SubSetsBorrow := by
  intro x y s
  obtain ⟨t, hexec, hframe, hplain, hy, hx, hxy⟩ := flags_of_exec_two (op := (· - ·)) (exec_sub s x y)
  have hborrow := borrowFlag_toNat (s.reg x) (s.reg y)
  refine ⟨t, hexec, hframe, fun h h' => ?_, fun h h' => ?_, fun h h' => ?_, fun h h' => ?_⟩
  · obtain ⟨hvf, hr⟩ := hplain h h'
    exact ⟨hvf ▸ hborrow, hr ▸ toNat_sub_byte _ _⟩
  · obtain ⟨hvf, hr⟩ := hy h h'
    exact ⟨hvf ▸ hborrow, by rw [hr, toNat_sub_byte, hborrow]⟩
  · rw [hx h h', toNat_sub_byte, hborrow]
  · rw [hxy h h', BitVec.sub_self]; rfl

/-- Settles O24: the subtraction with its operands exchanged. -/
theorem subnSetsBorrow : Obligations.SubnSetsBorrow := by
  intro x y s
  obtain ⟨t, hexec, hframe, hplain, hy, hx, hxy⟩ := flags_of_exec_two (op := fun a b => b - a) (exec_subn s x y)
  have hborrow := borrowFlag_toNat (s.reg y) (s.reg x)
  refine ⟨t, hexec, hframe, fun h h' => ?_, fun h h' => ?_, fun h h' => ?_, fun h h' => ?_⟩
  · obtain ⟨hvf, hr⟩ := hplain h h'
    exact ⟨hvf ▸ hborrow, hr ▸ toNat_sub_byte _ _⟩
  · obtain ⟨hvf, hr⟩ := hy h h'
    exact ⟨hvf ▸ hborrow, by rw [hr, toNat_sub_byte, hborrow]⟩
  · rw [hx h h', toNat_sub_byte, hborrow]
  · rw [hxy h h', BitVec.sub_self]; rfl

theorem toNat_shiftRight_byte (a : Byte) : (a >>> 1).toNat = a.toNat / 2 := by
  rw [BitVec.toNat_ushiftRight, Nat.shiftRight_eq_div_pow]

theorem toNat_shiftLeft_byte (a : Byte) : (a <<< 1).toNat = 2 * a.toNat % 256 := by
  rw [BitVec.toNat_shiftLeft, Nat.shiftLeft_eq, Nat.mul_comm]

/-- Settles O25: with `X = VF` the shift is of the flag, which is at most 1 for `SHR` and at most 31 for `SHL`. -/
theorem shiftsSetTheirFlags : Obligations.ShiftsSetTheirFlags := by
  intro x s
  constructor
  · obtain ⟨t, hexec, hframe, hreg, hflag⟩ := flags_of_exec (exec_shr s x)
    refine ⟨t, hexec, hframe, fun hx => ⟨hflag hx ▸ shrFlag_toNat _, ?_⟩, fun hx => ?_⟩
    · rw [hreg, State.reg_setReg_other _ hx, toNat_shiftRight_byte]
    · rw [← hx, hreg, hx, State.reg_setReg_same, toNat_shiftRight_byte, shrFlag_toNat]; omega
  · obtain ⟨t, hexec, hframe, hreg, hflag⟩ := flags_of_exec (exec_shl s x)
    refine ⟨t, hexec, hframe, fun hx => ⟨hflag hx ▸ shlFlag_toNat _, ?_⟩, fun hx => ?_⟩
    · rw [hreg, State.reg_setReg_other _ hx, toNat_shiftLeft_byte]
    · have := (s.reg x).isLt
      rw [← hx, hreg, hx, State.reg_setReg_same, toNat_shiftLeft_byte, shlFlag_toNat]; subst hx; omega

/-- Settles O27: one register write of the bitwise combination. -/
theorem randomByteUnderMask : Obligations.RandomByteUnderMask :=
  fun x nn s => writesBits_of_exec_setReg (exec_rnd s x nn) fun _ => BitVec.getLsbD_and

end Sys2Proof.Machine
end

section
/-! Control transfer (41_flow.md R110 to R112, R117), the writes of `I` (44_key_timer_mem.md R166, R167) and the key
wait (R163). -/

namespace Sys2Proof.Machine

variable {s : State} {i : Instr}

theorem State.fetch_of_gt (h : s.pc.toNat > 4094) : s.fetch = .error .fetchOutOfBounds := if_pos (by omega)

/-- An instruction that answers a jump. -/
theorem jumps_of_exec {a : Word} (h : exec i s = .next (s.setPc a)) :
    ∃ t, exec i s = .next t ∧ t.pc.toNat = a.toNat ∧ Frame [] [.pc] s t ∧
      (t.pc.toNat > 4094 → t.fetch = .error .fetchOutOfBounds) :=
  ⟨_, h, rfl, s.setPc_frame a, State.fetch_of_gt⟩

/-- Settles O28: both jumps set `pc` and look at nothing else; the sum of `JP V0` stays below `2 ^ 16`. -/
theorem jumpsSetThePc : Obligations.JumpsSetThePc := by
  refine ⟨denotes_of_class (by decide) fun _ => rfl, denotes_of_class (by decide) fun _ => rfl, fun nnn s => ⟨?_, ?_⟩⟩
  · exact addrOperand_toNat nnn ▸ jumps_of_exec (exec_jp s nnn)
  · exact jpV0_target_toNat (s.reg 0) nnn ▸ jumps_of_exec (exec_jpV0 s nnn)

/-- A new stack and a new `pc`. -/
theorem setStack_setPc_frame (s : State) (l : List Word) (a : Word) :
    Frame [] [.pc, .stack] s ((s.setStack l).setPc a) :=
  ((s.setStack_frame l).widen (by simp)).trans
    (((s.setStack l).setPc_frame a).widen (by simp))

/-- Settles O29: the two branches of the push. -/
theorem callPushesOrOverflows : Obligations.CallPushesOrOverflows := fun nnn s =>
  ⟨fun hroom => ⟨_, exec_call_of_room nnn hroom, addrOperand_toNat nnn, rfl, setStack_setPc_frame s _ _⟩,
    fun hfull => ⟨_, exec_call_of_full nnn hfull, s.raiseFault_taken _⟩⟩

/-- Settles O30: the two branches of the pop. -/
theorem returnPopsOrUnderflows : Obligations.ReturnPopsOrUnderflows := fun s =>
  ⟨fun _ _ hs => ⟨_, exec_ret_of_cons hs, rfl, rfl, setStack_setPc_frame s _ _⟩,
    fun hs => ⟨_, exec_ret_of_nil hs, s.raiseFault_taken _⟩⟩

theorem byteOperand_toNat (b : Byte) : (byteOperand b).toNat = b.toNat := BitVec.toNat_setWidth_of_le (by decide)

/-- Settles O41: an addition of two words is modulo `2 ^ 16`. -/
theorem addToAddressRegister : Obligations.AddToAddressRegister := fun x s =>
  ⟨_, exec_addI s x, by rw [State.setI_I, BitVec.toNat_add, byteOperand_toNat], s.setI_frame _⟩

/-- Settles O42: the address is five times a byte at most, by the parameter. -/
theorem fontPointerReadsThroughTheImage : Obligations.FontPointerReadsThroughTheImage := by
  intro x s
  refine ⟨_, exec_ldFont s x, s.setI_frame _, fun h => ?field, fun h => ?register, fun operand => ?bound⟩
  case field | register => rw [State.setI_I, byteOperand_toNat, h]; rfl
  case bound =>
    have := x.isLt; have := (s.reg x).isLt
    cases operand <;> simp only [State.fontAddress] <;> omega

/-- Settles O40: the wait is entered with no register written; from there the four clauses are those of a waiting
engine. -/
theorem keyWaitRemembersTheRegister : Obligations.KeyWaitRemembersTheRegister := by
  intro x s
  have hwait : (s.enterWait x).fsm = .awaitingKey := rfl
  refine ⟨_, exec_ldKey s x, hwait, rfl, s.enterWait_frame x, fun r => State.tick_of_awaiting_zero hwait,
    ⟨State.timerTick_dt (by simp [State.Live]), State.timerTick_frame _⟩, fun k r hk => ?_⟩
  exact ⟨_, State.tick_of_awaiting_key hwait hk, (State.reg_acceptKey _ k x).trans (if_pos rfl), rfl,
    (s.enterWait x).acceptKey_frame k⟩

end Sys2Proof.Machine
end

section
/-! The instructions that move bytes between the registers and the image (44_key_timer_mem.md R168 to R170, 20_memory.md
R55, R58, R63). -/

namespace Sys2Proof.Machine

variable {s u : State} {x : Reg}

/-- The premise of the statements: the range is empty or its last byte lies in the image. -/
theorem span_le_of_last_le {n : Nat} (h : n = 0 ∨ s.indexed (n - 1) ≤ 4095) : n = 0 ∨ s.I.toNat + n ≤ 4096 := by
  rw [State.indexed] at h; omega

theorem span_gt_of_last_gt {n : Nat} (hn : 0 < n) (h : s.indexed (n - 1) > 4095) : s.I.toNat + n - 1 > 4095 := by
  rw [State.indexed] at h; omega

/-- Settles O46: each of the four takes its fault on the state it found. -/
theorem accessPastTheImageFaults : Obligations.AccessPastTheImageFaults := fun x y n s =>
  ⟨fun h => ⟨_, exec_ldBcd_of_gt x h, s.raiseFault_taken _⟩,
    fun hx h => ⟨_, exec_dump_of_out x hx (span_gt_of_last_gt hx h), s.raiseFault_taken _⟩,
    fun hx h => ⟨_, exec_load_of_out x hx (span_gt_of_last_gt hx h), s.raiseFault_taken _⟩,
    fun hn h => ⟨_, exec_drw_of_out x y n hn (span_gt_of_last_gt hn h), s.raiseFault_taken _⟩⟩

/-- The byte each address reads after the three digit writes: the last one stands. -/
theorem State.readMem_storeDigits (h : s.MemCanonical) (hI : s.I.toNat ≤ 4095) (b : Byte) (a : Nat) :
    (s.storeDigits b).readMem a = if a = s.indexed 0 then onesDigit b else s.readMem a := by
  have hin : s.indexed 0 < Config.imageBytes := Nat.lt_succ_of_le hI
  have hfirst := Memory.wf_write h hin (hundredsDigit b)
  have hsecond := Memory.wf_write hfirst hin (tensDigit b)
  unfold State.storeDigits
  rw [State.readMem_writeMem hsecond, State.readMem_writeMem hfirst, State.readMem_writeMem h]
  split <;> rfl

theorem State.storeDigits_frame (s : State) (b : Byte) : Frame [] [.mem] s (s.storeDigits b) :=
  ((s.writeMem_frame _ _).trans (State.writeMem_frame _ _ _)).trans (State.writeMem_frame _ _ _)

/-- Settles O43: of the three writes to one address the ones digit is the last. -/
theorem bcdLeavesTheOnesDigitAtI : Obligations.BcdLeavesTheOnesDigitAtI := by
  intro x s hm hI
  have hread := State.readMem_storeDigits hm hI (s.reg x)
  refine ⟨_, exec_ldBcd_of_le x hI, ?ones, fun a ha => (hread a).trans (if_neg ha), s.storeDigits_frame _⟩
  case ones =>
    rw [hread, if_pos rfl, onesDigit, BitVec.toNat_ofNat]
    omega

/-- Each register below `n` stands at its address after the dump of `n`. -/
theorem State.readMem_storeRegs_indexed (hm : s.MemCanonical) {n : Nat} (hn : n = 0 ∨ s.I.toNat + n ≤ 4096) (k : Reg)
    (hk : k.val < n) : (s.storeRegs n).readMem (s.indexed k.val) = s.reg k := by
  have hspan : s.I.toNat + n ≤ Config.imageBytes := hn.resolve_left (by omega)
  have hk' : Fin.ofNat 16 (s.I.toNat + k.val - s.I.toNat) = k := by
    rw [Nat.add_sub_cancel_left]; ext; simp
  rw [State.readMem_storeRegs hm hspan, State.indexed, if_pos (by omega), hk']

theorem State.readMem_storeRegs_outside (hm : s.MemCanonical) {n : Nat} (hn : n = 0 ∨ s.I.toNat + n ≤ 4096) (a : Nat)
    (ha : a < s.indexed 0 ∨ s.indexed n ≤ a) : (s.storeRegs n).readMem a = s.readMem a := by
  rcases hn with rfl | hspan
  · rfl
  · rw [State.indexed, State.indexed] at ha
    rw [State.readMem_storeRegs hm hspan, if_neg (by omega)]

/-- Settles O44: the dump's loop reads back by its closed form. -/
theorem dumpStoresTheRegistersBelowX : Obligations.DumpStoresTheRegistersBelowX := by
  intro x s hm hx
  have hspan := span_le_of_last_le hx
  exact ⟨_, exec_dump_of_in x hspan, s.storeRegs_frame x.val, State.readMem_storeRegs_indexed hm hspan,
    State.readMem_storeRegs_outside hm hspan⟩

theorem State.reg_loadRegs_of_lt (k : Reg) (hk : k.val < x.val) :
    (s.loadRegs x.val).reg k = s.readMem (s.indexed k.val) :=
  (s.reg_loadRegs x.isLt.le k).trans (if_pos hk)

/-- Settles O45: the load's loop by its closed form. -/
theorem loadFillsTheRegistersBelowX : Obligations.LoadFillsTheRegistersBelowX := fun x s hx =>
  ⟨_, exec_load_of_in x (span_le_of_last_le hx), State.reg_loadRegs_of_lt, s.loadRegs_frame x.isLt.le⟩

/-- Settles O47: the load reads the addresses the dump wrote. -/
theorem dumpThenLoadRestoresTheRegisters : Obligations.DumpThenLoadRestoresTheRegisters := by
  intro x s u hm hx
  have hspan := span_le_of_last_le hx
  refine ⟨_, exec_dump_of_in x hspan, fun hmem hparams hI => ?_⟩
  have hI' : u.I = s.I := hI.trans ((s.storeRegs_frame x.val).I (by simp))
  refine ⟨_, exec_load_of_in x (hI' ▸ hspan), fun k hk => ?_⟩
  calc (u.loadRegs x.val).reg k = u.readMem (u.indexed k.val) := State.reg_loadRegs_of_lt k hk
    _ = (s.storeRegs x.val).readMem (s.indexed k.val) := by
      rw [State.readMem_congr hmem hparams, State.indexed, State.indexed, hI']
    _ = s.reg k := State.readMem_storeRegs_indexed hm hspan k hk

/-- Settles O48: the fetch reads the two addresses that registers 0 and 1 were stored at. -/
theorem storedBytesAreFetched : Obligations.StoredBytesAreFetched := by
  intro x s u hm hx hlast
  have hspan : x.val = 0 ∨ s.I.toNat + x.val ≤ 4096 := span_le_of_last_le (.inr hlast)
  refine ⟨_, exec_dump_of_in x hspan, fun hmem hparams hpc => ?_⟩
  have stored : ∀ k : Reg, k.val < x.val → u.readMem (s.I.toNat + k.val) = s.reg k := fun k hk =>
    (State.readMem_congr hmem hparams _).trans (State.readMem_storeRegs_indexed hm hspan k hk)
  refine ⟨wordOfBytes (s.reg 0) (s.reg 1), ?_, wordOfBytes_toNat _ _⟩
  rw [State.fetch, hpc, if_neg (by omega), ← stored 0 (by simp; omega), ← stored 1 (by simp; omega)]
  rfl

end Sys2Proof.Machine
end

section
/-! The canonical form says everything that an image reads (20_memory.md R50, log 18). -/

namespace Sys2Proof.Machine

variable {font : Font}

theorem Memory.risesFrom_cons {lo : Nat} {c : Host.Cell} {m : Memory} :
    Memory.risesFrom lo (c :: m) = true ↔ lo ≤ c.1 ∧ Memory.risesFrom (c.1 + 1) m = true := by
  simp [Memory.risesFrom]

/-- A listed byte that differs from its reset contents is no lower than another list that reads the same. -/
theorem Memory.le_of_read_eq {lo : Nat} {c : Host.Cell} {m m' : Memory} (hc : c.2 ≠ Memory.background font c.1)
    (hm' : Memory.risesFrom lo m' = true) (h : ∀ a, Memory.read font (c :: m) a = m'.read font a) : lo ≤ c.1 := by
  by_contra hlt
  apply hc
  calc c.2 = Memory.read font (c :: m) c.1 := by rw [Memory.read_cons, if_pos rfl]
    _ = Memory.background font c.1 := by rw [h, Memory.read_below hm' (not_le.mp hlt)]

/-- Two rising lists without reset contents that read alike are equal: neither first address is lower than the other, so
the first bytes are the same, and the rests read alike. -/
theorem Memory.eq_of_read_eq {lo : Nat} {m m' : Memory} (hm : Memory.risesFrom lo m = true)
    (hm' : Memory.risesFrom lo m' = true) (hne : ∀ c ∈ m, c.2 ≠ Memory.background font c.1)
    (hne' : ∀ c ∈ m', c.2 ≠ Memory.background font c.1) (h : ∀ a, m.read font a = m'.read font a) : m = m' := by
  induction m generalizing lo m' with
  | nil =>
    cases m' with
    | nil => rfl
    | cons c' m' =>
      have hle := Memory.le_of_read_eq (lo := c'.1 + 1) (m' := []) (hne' c' List.mem_cons_self) rfl fun a => (h a).symm
      omega
  | cons c m ih =>
    cases m' with
    | nil =>
      have hle := Memory.le_of_read_eq (lo := c.1 + 1) (m' := []) (hne c List.mem_cons_self) rfl h
      omega
    | cons c' m' =>
      have hrise := (Memory.risesFrom_cons.mp hm).2
      have hrise' := (Memory.risesFrom_cons.mp hm').2
      have haddr : c.1 = c'.1 := le_antisymm
        (Memory.le_of_read_eq (hne' c' List.mem_cons_self) (Memory.risesFrom_cons.mpr ⟨le_rfl, hrise⟩)
          fun a => (h a).symm)
        (Memory.le_of_read_eq (hne c List.mem_cons_self) (Memory.risesFrom_cons.mpr ⟨le_rfl, hrise'⟩) h)
      have hbyte : c.2 = c'.2 := by simpa [Memory.read_cons, haddr] using h c.1
      have hrest : m = m' := by
        refine ih hrise (haddr ▸ hrise') (fun d hd => hne d (List.mem_cons_of_mem c hd))
          (fun d hd => hne' d (List.mem_cons_of_mem c' hd)) fun a => ?_
        by_cases ha : a ≤ c.1
        · rw [Memory.read_below hrise (by omega), Memory.read_below hrise' (by omega)]
        · have hread := h a
          rwa [Memory.read_cons, Memory.read_cons, if_neg (by omega), if_neg (by omega)] at hread
      rw [hrest, Prod.ext haddr hbyte]

/-- Settles O49: the canonical form is a rising list without reset contents. -/
theorem canonicalImagesThatReadAlikeAreEqual : Obligations.CanonicalImagesThatReadAlikeAreEqual := by
  intro font m m' hm hm' h
  obtain ⟨hrise, hcells⟩ := (Memory.wf_iff m).mp hm
  obtain ⟨hrise', hcells'⟩ := (Memory.wf_iff m').mp hm'
  exact Memory.eq_of_read_eq hrise hrise' (fun c hc => (hcells c hc).2) (fun c hc => (hcells' c hc).2) h

end Sys2Proof.Machine
end

section
/-! Short runs (95_test_vectors.md W1, W6, 40_engine.md R101, 30_encoding.md R77): the `Tick`s are run one after another
by the law of a `Tick` on a known word. -/

namespace Sys2Proof.Machine

variable {s : State} {k r : Byte} {i : Instr}

theorem toNat_highByte_lowByte (w : Word) : w.toNat = (highByte w).toNat * 256 + (lowByte w).toNat := by
  simp only [highByte, lowByte, toNat_bitSlice]
  have := w.isLt
  omega

/-- A `Tick` that finds an instruction's encoding at `pc` runs that instruction. -/
theorem State.tick_of_encode (hf : s.fsm = .running) (hp : s.pc.toNat ≤ 4094)
    (hhi : s.readMem s.pc.toNat = highByte (encode i)) (hlo : s.readMem (s.pc.toNat + 1) = lowByte (encode i)) :
    s.tick k r = exec i ((s.sample k r).advance (encode i)) :=
  State.tick_of_decode hf hp (by rw [hhi, hlo]; exact toNat_highByte_lowByte _) (decodeOfEncodeIsTheInstruction i)

/-- `pc` past one instruction of the image. -/
theorem toNat_pc_add_two {pc : Word} (hp : pc.toNat ≤ 0x1000) : (pc + 2).toNat = pc.toNat + 2 := by
  rw [BitVec.toNat_add]; simp only [BitVec.reduceToNat]; omega

/-- What fetches alone change: `pc`, the word recorded and the inputs sampled. -/
theorem fetched_frame (s : State) (pc w : Word) (k r : Byte) :
    Frame [] [.pc, .lastInstr, .key, .rnd] s { s with pc := pc, lastInstr := w, key := k, rnd := r } := by
  constructor
  case pc | lastInstr | key | rnd => simp
  all_goals intros; rfl

theorem State.tick_call {nnn : Addr} (hf : s.fsm = .running) (hp : s.pc.toNat ≤ 4094)
    (hhi : s.readMem s.pc.toNat = highByte (encode (.call nnn)))
    (hlo : s.readMem (s.pc.toNat + 1) = lowByte (encode (.call nnn))) (hroom : s.stack.length < s.params.stackDepth) :
    s.tick k r = .next { s with pc := addrOperand nnn, stack := (s.pc + 2) :: s.stack,
                                lastInstr := encode (.call nnn), key := k, rnd := r } :=
  (State.tick_of_encode hf hp hhi hlo).trans (exec_call_of_room nnn hroom)

theorem State.tick_ret {v w : Word} {rest : List Word} (hf : s.fsm = .running) (hp : s.pc.toNat ≤ 4094)
    (hw : w.toNat = (s.readMem s.pc.toNat).toNat * 256 + (s.readMem (s.pc.toNat + 1)).toNat)
    (hret : decodeWord w = .ok .ret) (hs : s.stack = v :: rest) :
    s.tick k r = .next { s with pc := v, stack := rest, lastInstr := w, key := k, rnd := r } :=
  (State.tick_of_decode hf hp hw hret).trans (exec_ret_of_cons hs)

/-- Settles O32: the call answers with the return address on top of the stack, and the return pops that very entry. -/
theorem callThenReturnComesBack : Obligations.CallThenReturnComesBack := by
  intro s nnn w k r k' r' hf hp hhi hlo hnnn hw hret hroom
  have htarget : (addrOperand nnn).toNat = nnn.toNat := addrOperand_toNat nnn
  rw [← htarget] at hnnn hw
  exact ⟨_, _, State.tick_call hf hp hhi hlo hroom, htarget, rfl, State.tick_ret hf hnnn hw hret rfl, rfl,
    fetched_frame s (s.pc + 2) w k' r'⟩

/-- Settles O33: the skip finds the register at the literal the load has put there. -/
theorem setThenSkipAlwaysSkips : Obligations.SetThenSkipAlwaysSkips := by
  intro s x nn k r k' r' hf hp hhi hlo hhi' hlo'
  have hpc : (s.pc + 2).toNat = s.pc.toNat + 2 := toNat_pc_add_two (by omega)
  have hset := (State.tick_of_encode (k := k) (r := r) hf (by omega) hhi hlo).trans (exec_ldImm _ x nn)
  have hskip := (State.tick_of_encode (k := k') (r := r') (i := .seImm x nn)
    (s := ((s.sample k r).advance (encode (.ldImm x nn))).setReg x nn)
    hf (hpc.trans_le (by omega)) (hpc.symm ▸ hhi') (hpc.symm ▸ hlo')).trans (exec_seImm _ x nn)
  refine ⟨_, _, hset, hskip, ?pc, State.reg_setReg_same _ x nn, ?frame⟩
  case pc =>
    rw [State.skipIf_beq_pc, State.reg_advance, State.reg_sample, State.reg_setReg_same, if_pos rfl]
    have hpc' : (s.pc + 2 + 2).toNat = s.pc.toNat + 4 := by rw [toNat_pc_add_two (by omega), hpc]
    exact (toNat_pc_add_two (pc := s.pc + 2 + 2) (by omega)).trans (by rw [hpc'])
  case frame =>
    exact ((s.sample_frame k r).mono (by simp) (by simp)).trans <|
      ((State.advance_frame _ _).mono (by simp) (by simp)).trans <|
      ((State.setReg_frame _ x nn).mono (by simp) (by simp)).trans <|
      ((State.sample_frame _ k' r').mono (by simp) (by simp)).trans <|
      ((State.advance_frame _ _).mono (by simp) (by simp)).trans <| (State.skipIf_frame _ _).mono (by simp) (by simp)

/-- Settles O34: the jump sets `pc` to the address it was fetched from, and the word recorded stands there already. -/
theorem selfJumpIsQuiescent : Obligations.SelfJumpIsQuiescent := by
  intro s nnn k r hf hpc hnnn hhi hlo hlast
  rw [← hpc] at hhi hlo hnnn
  have htarget : addrOperand nnn = s.pc := BitVec.eq_of_toNat_eq ((addrOperand_toNat nnn).trans hpc.symm)
  have htick : s.tick k r = .next ((((s.sample k r).advance (encode (.jp nnn))).setPc (addrOperand nnn))) :=
    (State.tick_of_encode hf hnnn hhi hlo).trans (exec_jp _ nnn)
  have hback : (((s.sample k r).advance (encode (.jp nnn))).setPc (addrOperand nnn)) = s.sample k r := by
    rw [htarget, ← hlast]; rfl
  exact ⟨_, hback ▸ htick, s.sample_frame k r⟩

/-! ### Zero-filled memory -/

/-- What is to be seen after a `CLS` of a zero word: the display blank, the word recorded, the load window closed. -/
def State.Cleared (s : State) : Prop := (∀ x y, s.pixel x y = false) ∧ s.lastInstr = 0x0000 ∧ s.loadWindow = false

/-- With nothing pending, a step that fetches two zero bytes clears the display. -/
theorem step_of_zero_word (hf : s.fsm = .running) (hp : s.pending = []) (hpc : s.pc.toNat ≤ 4094)
    (hhi : s.readMem s.pc.toNat = 0x00) (hlo : s.readMem (s.pc.toNat + 1) = 0x00) :
    ∃ t, step s = .next t ∧ t.pc = s.pc + 2 ∧ t.Cleared ∧
      Frame [] [.px, .pc, .lastInstr, .key, .rnd, .draws, .loadWindow] s t := by
  have hw : (0x0000 : Word).toNat = (s.readMem s.pc.toNat).toNat * 256 + (s.readMem (s.pc.toNat + 1)).toNat := by
    rw [hhi, hlo]; rfl
  have htick := State.tick_of_decode (s := s.countDraw.closeLoadWindow) (k := Config.freeKey s.draws)
    (r := Config.freeRnd s.draws) hf hpc hw (i := .cls) (by decide)
  refine ⟨_, (step_of_no_pending hp).trans (htick.trans (exec_cls _)), rfl,
    ⟨State.pixel_clearDisplay _, rfl, rfl⟩, ?_⟩
  exact (s.countDraw_frame.widen (by simp)).trans <| ((State.closeLoadWindow_frame _).widen (by simp)).trans <|
    ((State.sample_frame _ _ _).widen (by simp)).trans <| ((State.advance_frame _ _).widen (by simp)).trans <|
    (State.clearDisplay_frame _).widen (by simp)

/-- With nothing pending, a step whose fetch would leave the image takes the fault. -/
theorem step_of_pc_out (hf : s.fsm = .running) (hp : s.pending = []) (hpc : s.pc.toNat ≥ 4095) :
    ∃ u, step s = .next u ∧ u.fsm = .faulted ∧ u.faultCause = .fetchOutOfBounds ∧
      Frame [] [.fsm, .faultCause, .draws, .loadWindow] s u := by
  have htick := State.tick_of_pc_out (s := s.countDraw.closeLoadWindow) (k := Config.freeKey s.draws)
    (r := Config.freeRnd s.draws) hf hpc
  refine ⟨_, (step_of_no_pending hp).trans htick, rfl, rfl, ?_⟩
  exact (s.countDraw_frame.widen (by simp)).trans <| ((State.closeLoadWindow_frame _).widen (by simp)).trans <|
    (State.raiseFault_taken _ _).rest.widen (by simp)

theorem core_run_succ {t : State} (m : Nat) (h : step s = .next t) : core.run (m + 1) s = core.run m t := by
  have h' : core.step s = .next t := h
  simp only [Host.Core.run, h']

/-- The run over `m` zero words, by induction on `m`: a first `CLS`, then the run over the rest. -/
theorem run_of_zero_words (m : Nat) (hf : s.fsm = .running) (hp : s.pending = []) (hpc : s.pc.toNat + 2 * m = 4096)
    (hzero : ∀ a, s.pc.toNat ≤ a → a ≤ 4095 → s.readMem a = 0x00) :
    ∃ t, core.run m s = .next t ∧ t.pc = 0x1000 ∧ (0 < m ∨ s.Cleared → t.Cleared) ∧
      Frame [] [.px, .pc, .lastInstr, .key, .rnd, .draws, .loadWindow] s t := by
  induction m generalizing s with
  | zero =>
    exact ⟨s, rfl, BitVec.eq_of_toNat_eq hpc, fun h => h.resolve_left (Nat.lt_irrefl 0), Frame.refl s _ _⟩
  | succ m ih =>
    obtain ⟨t, hstep, htpc, hcleared, hframe⟩ := step_of_zero_word hf hp (by omega) (hzero _ le_rfl (by omega))
      (hzero _ (by omega) (by omega))
    have htpc' : t.pc.toNat = s.pc.toNat + 2 := htpc ▸ toNat_pc_add_two (by omega)
    obtain ⟨u, hrun, hupc, hucleared, huframe⟩ := ih ((hframe.fsm (by simp)).trans hf)
      ((hframe.pending (by simp)).trans hp) (by omega)
      (fun a ha ha' => (hframe.mem (by simp) a).trans (hzero a (by omega) ha'))
    exact ⟨u, (core_run_succ m hstep).trans hrun, hupc, fun _ => hucleared (.inr hcleared), hframe.trans huframe⟩

/-- Settles O35: the run over the zero words ends at 4096, and the step after it cannot fetch. -/
theorem zeroFilledMemoryRunsClsToTheEnd : Obligations.ZeroFilledMemoryRunsClsToTheEnd := by
  intro m s hf hp hpc hzero
  obtain ⟨t, hrun, htpc, hcleared, hframe⟩ := run_of_zero_words m hf hp hpc hzero
  obtain ⟨u, hstep, hfsm, hcause, huframe⟩ := step_of_pc_out ((hframe.fsm (by simp)).trans hf)
    ((hframe.pending (by simp)).trans hp) (by rw [htpc]; decide)
  exact ⟨t, u, hrun, htpc, fun hm => hcleared (.inl hm), hframe, hstep, hfsm, hcause, huframe⟩

end Sys2Proof.Machine
end

section
/-! Which instructions read the sampled inputs (40_engine.md R94). -/

namespace Sys2Proof.Machine

variable {s t : State} {i : Instr} (k r : Byte)

/-! ### The loops do not read them -/

theorem State.drawBits_sample (s : State) (x0 : Byte) (y : Fin 32) (row : Byte) (n : Nat) :
    (s.sample k r).drawBits x0 y row n = (s.drawBits x0 y row n).sample k r := by
  induction n with
  | zero => rfl
  | succ n ih => rw [State.drawBits, ih, State.drawBits, State.drawBit_eq, State.drawBit_eq]; rfl

theorem State.drawRows_sample (s : State) (x0 y0 : Byte) (n : Nat) :
    (s.sample k r).drawRows x0 y0 n = (s.drawRows x0 y0 n).sample k r := by
  induction n with
  | zero => rfl
  | succ n ih => rw [State.drawRows, ih]; exact State.drawBits_sample k r _ _ _ _ _

theorem State.drawSprite_sample (s : State) (x y : Reg) (n : Nat) :
    (s.sample k r).drawSprite x y n = (s.drawSprite x y n).sample k r :=
  State.drawRows_sample k r (s.setReg VF 0x00) _ _ n

theorem State.storeRegs_sample (s : State) (n : Nat) :
    (s.sample k r).storeRegs n = (s.storeRegs n).sample k r := by
  induction n with
  | zero => rfl
  | succ n ih => rw [State.storeRegs, ih]; rfl

theorem State.loadRegs_sample (s : State) (n : Nat) :
    (s.sample k r).loadRegs n = (s.loadRegs n).sample k r := by
  induction n with
  | zero => rfl
  | succ n ih => rw [State.loadRegs, ih]; rfl

/-- The conditions of the fault table do not read them. -/
theorem FaultsWith.sample {c : FaultCause} (h : FaultsWith i s c) : FaultsWith i (s.sample k r) c := by
  cases c <;> exact h

/-- Of two answers from states that differ in the inputs alone, the second is the first with the other inputs. -/
theorem next_sample {u : State} (h : exec i s = .next t) (hu : exec i s = .next u)
    (h' : exec i (s.sample k r) = .next (u.sample k r)) : exec i (s.sample k r) = .next (t.sample k r) := by
  rw [Host.Outcome.next.inj (h.symm.trans hu), h']

/-- An instruction that reads neither input does the same on other inputs. -/
theorem exec_sample (h : exec i s = .next t) (hkey : ∀ x, i ≠ .skp x ∧ i ≠ .sknp x) (hrnd : ∀ x nn, i ≠ .rnd x nn) :
    exec i (s.sample k r) = .next (t.sample k r) := by
  by_cases hf : ∃ c, FaultsWith i s c
  · obtain ⟨c, hc⟩ := hf
    exact next_sample k r h (exec_of_faultsWith hc) (exec_of_faultsWith (hc.sample k r))
  have hin (c : FaultCause) : ¬ FaultsWith i s c := fun hc => hf ⟨c, hc⟩
  cases i with
  | skp x => exact ((hkey x).1 rfl).elim
  | sknp x => exact ((hkey x).2 rfl).elim
  | rnd x nn => exact (hrnd x nn rfl).elim
  | ret =>
    cases hs : s.stack with
    | nil => exact (hin .stackUnderflow ⟨rfl, hs⟩).elim
    | cons v rest => exact next_sample k r h (exec_ret_of_cons hs) (exec_ret_of_cons (s := s.sample k r) hs)
  | call nnn =>
    have hroom := call_room_of_no_fault hin
    exact next_sample k r h (exec_call_of_room nnn hroom) (exec_call_of_room (s := s.sample k r) nnn hroom)
  | drw x y n =>
    have hspan := drw_in_of_no_fault hin
    refine next_sample k r h (exec_drw_of_in x y n hspan) ?_
    rw [exec_drw_of_in (s := s.sample k r) x y n hspan, State.drawSprite_sample]
  | ldBcd x =>
    have hI := ldBcd_in_of_no_fault hin
    exact next_sample k r h (exec_ldBcd_of_le x hI) (exec_ldBcd_of_le (s := s.sample k r) x hI)
  | dump x =>
    have hspan := dump_in_of_no_fault hin
    refine next_sample k r h (exec_dump_of_in x hspan) ?_
    rw [exec_dump_of_in (s := s.sample k r) x hspan, State.storeRegs_sample]
  | load x =>
    have hspan := load_in_of_no_fault hin
    refine next_sample k r h (exec_load_of_in x hspan) ?_
    rw [exec_load_of_in (s := s.sample k r) x hspan, State.loadRegs_sample]
  | _ => exact next_sample k r h rfl rfl

/-- What an instruction answers holds the inputs it was given. -/
theorem exec_inputs (h : exec i s = .next t) : t.key = s.key ∧ t.rnd = s.rnd := by
  rcases exec_cases h with ⟨c, -, rfl⟩ | ⟨-, hcompletes⟩
  · exact ⟨rfl, rfl⟩
  · obtain ⟨-, -, hkey, hrnd, -⟩ := hcompletes.rest
    exact ⟨hkey, hrnd⟩

/-- Settles O55: a key skip that is given another random byte, and a random byte's reader another key, do the same too;
every other instruction reads neither. -/
theorem inputsAreReadByTheirInstructionsAlone : Obligations.InputsAreReadByTheirInstructionsAlone := by
  intro i s t h
  obtain ⟨hkey, hrnd⟩ := exec_inputs h
  constructor
  · intro k hi
    by_cases hr : ∃ x nn, i = .rnd x nn
    · obtain ⟨x, nn, rfl⟩ := hr
      rw [← Host.Outcome.next.inj h]; rfl
    · change exec i (s.sample k s.rnd) = .next (t.sample k t.rnd)
      rw [hrnd]
      exact exec_sample k s.rnd h hi fun x nn hx => hr ⟨x, nn, hx⟩
  · intro r hi
    by_cases hk : ∃ x, i = .skp x ∨ i = .sknp x
    · obtain ⟨x, rfl | rfl⟩ := hk <;> rw [← Host.Outcome.next.inj h] <;> rfl
    · change exec i (s.sample s.key r) = .next (t.sample t.key r)
      rw [hkey]
      exact exec_sample s.key r h (fun x => ⟨fun hx => hk ⟨x, .inl hx⟩, fun hx => hk ⟨x, .inr hx⟩⟩) hi

end Sys2Proof.Machine
end

section
/-! The draw (43_display.md R151, R152): a sequence of overlays of disjoint sprites is the overlay of their union, so
the two loops are one overlay of the whole wrapped sprite. -/

namespace Sys2Proof.Machine

/-- The set bits of a sprite on the display. -/
abbrev Sprite := Fin 64 → Fin 32 → Bool

/-- From `s` to `t` a sprite is laid over the display: each pixel is the XOR, and `VF` becomes 1 on a collision. -/
structure Overlays (sprite : Sprite) (s t : State) : Prop where
  pixel : ∀ cx cy, t.pixel cx cy = (s.pixel cx cy ^^ sprite cx cy)
  hit : (∃ cx cy, s.pixel cx cy = true ∧ sprite cx cy = true) → t.reg VF = 0x01
  miss : (∀ cx cy, s.pixel cx cy = true → sprite cx cy = false) → t.reg VF = s.reg VF

variable {s t u : State} {sprite sprite' : Sprite}

theorem Overlays.empty (s : State) (h : ∀ cx cy, sprite cx cy = false) : Overlays sprite s s where
  pixel cx cy := by simp [h]
  hit := by rintro ⟨cx, cy, -, hset⟩; simp [h] at hset
  miss _ := rfl

/-- Two overlays of disjoint sprites: the second meets the pixels of the first draw's ground. -/
theorem Overlays.union (h : Overlays sprite s t) (h' : Overlays sprite' t u)
    (hdisjoint : ∀ cx cy, sprite' cx cy = true → sprite cx cy = false) :
    Overlays (fun cx cy => sprite cx cy || sprite' cx cy) s u := by
  have ground : ∀ cx cy, sprite' cx cy = true → t.pixel cx cy = s.pixel cx cy := fun cx cy hset => by
    rw [h.pixel, hdisjoint cx cy hset, Bool.xor_false]
  refine ⟨fun cx cy => ?pixel, ?hit, fun hmiss => ?miss⟩
  case pixel =>
    rw [h'.pixel, h.pixel]
    cases hset : sprite' cx cy
    · simp
    · simp [hdisjoint cx cy hset]
  case miss =>
    have hmiss' : ∀ cx cy, t.pixel cx cy = true → sprite' cx cy = false := fun cx cy hlit => by
      by_contra hset
      rw [Bool.not_eq_false] at hset
      have := hmiss cx cy ((ground cx cy hset).symm.trans hlit)
      simp [hset] at this
    rw [h'.miss hmiss', h.miss fun cx cy hlit => (Bool.or_eq_false_iff.mp (hmiss cx cy hlit)).1]
  case hit =>
    rintro ⟨cx, cy, hlit, hset⟩
    by_cases hsecond : ∃ cx cy, t.pixel cx cy = true ∧ sprite' cx cy = true
    · exact h'.hit hsecond
    · have hmiss' : ∀ cx cy, t.pixel cx cy = true → sprite' cx cy = false := fun cx cy hlit =>
        Bool.eq_false_of_not_eq_true fun hset => hsecond ⟨cx, cy, hlit, hset⟩
      have hfirst : sprite cx cy = true := by
        refine (Bool.or_eq_true_iff.mp hset).resolve_right fun hset' => hsecond ⟨cx, cy, ?_, hset'⟩
        rw [ground cx cy hset', hlit]
      rw [h'.miss hmiss', h.hit ⟨cx, cy, hlit, hfirst⟩]

theorem Overlays.congr (h : Overlays sprite s t) (heq : ∀ cx cy, sprite' cx cy = sprite cx cy) :
    Overlays sprite' s t := by
  rwa [show sprite' = sprite from funext fun cx => funext fun cy => heq cx cy]

/-- A sprite of one bit. -/
def bitSprite (x : Fin 64) (y : Fin 32) (bit : Bool) : Sprite := fun cx cy => decide (cx = x ∧ cy = y) && bit

theorem overlays_drawBit (s : State) (x : Fin 64) (y : Fin 32) (bit : Bool) :
    Overlays (bitSprite x y bit) s (s.drawBit x y bit) := by
  have hpx : ∀ cx cy, (s.drawBit x y bit).pixel cx cy = (s.pixel cx cy ^^ bitSprite x y bit cx cy) := fun cx cy => by
    have hset : (s.drawBit x y bit).pixel cx cy = (s.setPixel x y (s.pixel x y ^^ bit)).pixel cx cy := by
      unfold State.drawBit; split <;> rfl
    rw [hset, State.pixel_setPixel, bitSprite]
    by_cases hhere : cx = x ∧ cy = y
    · simp [hhere]
    · simp [hhere]
  refine ⟨hpx, ?hit, fun hmiss => ?miss⟩
  case hit =>
    rintro ⟨cx, cy, hlit, hset⟩
    obtain ⟨⟨rfl, rfl⟩, rfl⟩ : (cx = x ∧ cy = y) ∧ bit = true := by simpa [bitSprite] using hset
    rw [State.drawBit, if_pos (by simp [collides, hlit]), State.reg_setReg_same]
  case miss =>
    have hno : collides (s.pixel x y) bit = false := by
      have := hmiss x y
      cases hlit : s.pixel x y <;> simp_all [collides, bitSprite]
    rw [State.drawBit, if_neg (by simp [hno]), State.reg_setPixel]

/-! ### One row -/

/-- How many columns a column lies right of the origin, modulo 64. -/
def columnOffset (x0 : Byte) (cx : Fin 64) : Nat := (cx.val + 256 - x0.toNat) % 64

/-- How many rows a row lies below the origin, modulo 32. -/
def rowOffset (y0 : Byte) (cy : Fin 32) : Nat := (cy.val + 256 - y0.toNat) % 32

theorem eq_spriteColumn_iff (x0 : Byte) (cx : Fin 64) {b : Nat} (hb : b < 64) :
    cx = spriteColumn x0 b ↔ columnOffset x0 cx = b := by
  have := x0.isLt; have := cx.isLt
  rw [Fin.ext_iff, spriteColumn, columnOffset, Fin.val_ofNat]
  omega

theorem eq_spriteRow_iff (y0 : Byte) (cy : Fin 32) {r : Nat} (hr : r < 32) :
    cy = spriteRow y0 r ↔ rowOffset y0 cy = r := by
  have := y0.isLt; have := cy.isLt
  rw [Fin.ext_iff, spriteRow, rowOffset, Fin.val_ofNat]
  omega

/-- The first `n` bits of a sprite row, laid from the origin column on. -/
def rowSprite (x0 : Byte) (y : Fin 32) (row : Byte) (n : Nat) : Sprite := fun cx cy =>
  decide (columnOffset x0 cx < n ∧ cy = y) && row.getLsbD (7 - columnOffset x0 cx)

/-- One bit more is one column more. -/
theorem rowSprite_succ (x0 : Byte) (y : Fin 32) (row : Byte) {n : Nat} (hn : n < 64) (cx : Fin 64) (cy : Fin 32) :
    rowSprite x0 y row (n + 1) cx cy =
      (rowSprite x0 y row n cx cy || bitSprite (spriteColumn x0 n) y (spriteBit row n) cx cy) := by
  simp only [rowSprite, bitSprite, spriteBit, eq_spriteColumn_iff x0 cx hn]
  rcases lt_trichotomy (columnOffset x0 cx) n with h | h | h
  · simp [h, h.ne, Nat.lt_succ_of_lt h]
  · simp [h]
  · simp [h.not_gt, h.ne', show ¬ columnOffset x0 cx < n + 1 by omega]

theorem overlays_drawBits (s : State) (x0 : Byte) (y : Fin 32) (row : Byte) {n : Nat} (hn : n ≤ 8) :
    Overlays (rowSprite x0 y row n) s (s.drawBits x0 y row n) := by
  induction n with
  | zero => exact .empty s fun cx cy => by simp [rowSprite]
  | succ n ih =>
    refine ((ih (by omega)).union (overlays_drawBit _ _ _ _) fun cx cy hset => ?_).congr
      (rowSprite_succ x0 y row (by omega))
    have hcolumn : columnOffset x0 cx = n := by
      rw [← eq_spriteColumn_iff x0 cx (by omega)]
      simp only [bitSprite, Bool.and_eq_true, decide_eq_true_eq] at hset
      exact hset.1.1
    simp [rowSprite, hcolumn]

/-! ### The sprite -/

/-- One row more is one row further down. -/
theorem spriteAt_succ (s : State) (x0 y0 : Byte) {n : Nat} (hn : n < 32) (cx : Fin 64) (cy : Fin 32) :
    s.spriteAt x0 y0 (n + 1) cx cy = (s.spriteAt x0 y0 n cx cy ||
      rowSprite x0 (spriteRow y0 n) (s.readMem (s.indexed n)) 8 cx cy) := by
  simp only [State.spriteAt, rowSprite, eq_spriteRow_iff y0 cy hn]
  change (decide (columnOffset x0 cx < 8) && decide (rowOffset y0 cy < n + 1) &&
      (s.readMem (s.indexed (rowOffset y0 cy))).getLsbD (7 - columnOffset x0 cx)) =
    (decide (columnOffset x0 cx < 8) && decide (rowOffset y0 cy < n) &&
      (s.readMem (s.indexed (rowOffset y0 cy))).getLsbD (7 - columnOffset x0 cx) || _)
  rcases lt_trichotomy (rowOffset y0 cy) n with h | h | h
  · simp [h, h.ne, Nat.lt_succ_of_lt h]
  · simp [h]
  · simp [h.not_gt, h.ne', show ¬ rowOffset y0 cy < n + 1 by omega]

theorem overlays_drawRows (s : State) (x0 y0 : Byte) {n : Nat} (hn : n ≤ 32) :
    Overlays (s.spriteAt x0 y0 n) s (s.drawRows x0 y0 n) := by
  induction n with
  | zero => exact .empty s fun cx cy => by simp [State.spriteAt]
  | succ n ih =>
    have hrow : (s.drawRows x0 y0 n).readMem ((s.drawRows x0 y0 n).indexed n) = s.readMem (s.indexed n) := by
      rw [(s.drawRows_same x0 y0 n).rest]; rfl
    have hnext := overlays_drawBits (s.drawRows x0 y0 n) x0 (spriteRow y0 n) (s.readMem (s.indexed n)) le_rfl
    rw [State.drawRows, hrow]
    refine ((ih (by omega)).union hnext fun cx cy hset => ?_).congr (spriteAt_succ s x0 y0 (by omega))
    have hoffset : rowOffset y0 cy = n := by
      rw [← eq_spriteRow_iff y0 cy (by omega)]
      simp only [rowSprite, Bool.and_eq_true, decide_eq_true_eq] at hset
      exact hset.1.2
    rw [rowOffset] at hoffset
    simp [State.spriteAt, hoffset]

theorem State.reg_setReg_VF_zero (s : State) (x : Reg) : (s.setReg VF 0x00).reg x = s.origin x :=
  s.reg_setReg VF 0x00 x

/-- The whole draw, on the state with `VF` reset. -/
theorem overlays_drawSprite (s : State) (x y : Reg) {n : Nat} (hn : n ≤ 32) :
    Overlays (s.spriteAt (s.origin x) (s.origin y) n) (s.setReg VF 0x00) (s.drawSprite x y n) := by
  rw [← State.reg_setReg_VF_zero, ← State.reg_setReg_VF_zero]
  exact overlays_drawRows (s.setReg VF 0x00) _ _ hn

/-- Settles O37: the draw is the overlay of the whole sprite on the state with `VF` reset. -/
theorem drawIsThePixelwiseXorOfTheSprite : Obligations.DrawIsThePixelwiseXorOfTheSprite := by
  intro x y n s h
  have hover := overlays_drawSprite s x y (n := n.toNat) (by have := n.isLt; omega)
  exact ⟨_, exec_drw_of_in x y n (span_le_of_last_le h), (s.drawSprite_same x y n.toNat).frame, hover.pixel, hover.hit,
    fun hmiss => (hover.miss hmiss).trans (s.reg_setReg_same VF 0x00)⟩

/-- A frame of `VF` and the display keeps what a draw reads. -/
theorem Frame.spriteAt_eq (h : Frame [VF] [.px] s t) (x0 y0 : Byte) (n : Nat) (cx : Fin 64) (cy : Fin 32) :
    t.spriteAt x0 y0 n cx cy = s.spriteAt x0 y0 n cx cy := by
  simp only [State.spriteAt, State.indexed, h.I (by simp), h.mem (by simp)]

theorem Frame.origin_eq (h : Frame [VF] [.px] s t) (x : Reg) : t.origin x = s.origin x := by
  unfold State.origin
  split
  · rfl
  · next hx => exact h.regs x (by simpa using hx)

/-- A frame that allows the display, between states with the same pixels. -/
theorem Frame.without_px {regs : List Reg} (h : Frame regs [.px] s t) (hpx : ∀ cx cy, t.pixel cx cy = s.pixel cx cy) :
    Frame regs [] s t where
  regs := h.regs
  px _ := hpx
  params := h.params
  I _ := h.I (by simp)
  pc _ := h.pc (by simp)
  stack _ := h.stack (by simp)
  mem _ := h.mem (by simp)
  dt _ := h.dt (by simp)
  fsm _ := h.fsm (by simp)
  waitReg _ := h.waitReg (by simp)
  lastInstr _ := h.lastInstr (by simp)
  faultCause _ := h.faultCause (by simp)
  pending _ := h.pending (by simp)
  key _ := h.key (by simp)
  rnd _ := h.rnd (by simp)
  draws _ := h.draws (by simp)
  loadWindow _ := h.loadWindow (by simp)
  loadError _ := h.loadError (by simp)

/-- Settles O38: the second draw lays the same sprite at the same place, and two XORs with one bit are none. -/
theorem drawTwiceRestoresTheDisplay : Obligations.DrawTwiceRestoresTheDisplay := by
  intro x y n s h
  obtain ⟨t, hexec, hframe, hpx, -, -⟩ := drawIsThePixelwiseXorOfTheSprite x y n s h
  have h' : n.toNat = 0 ∨ t.indexed (n.toNat - 1) ≤ 4095 := by
    rwa [State.indexed, hframe.I (by simp)]
  obtain ⟨u, hexec', hframe', hpx', hhit, hmiss⟩ := drawIsThePixelwiseXorOfTheSprite x y n t h'
  simp only [hframe.origin_eq, hframe.spriteAt_eq] at hpx' hhit hmiss
  have hrestored : ∀ cx cy, u.pixel cx cy = s.pixel cx cy := fun cx cy => by
    rw [hpx', hpx, Bool.xor_assoc, Bool.xor_self, Bool.xor_false]
  refine ⟨t, u, hexec, hexec', hrestored, (hframe.trans hframe').without_px hrestored, fun hvf => ?_,
    fun ⟨cx, cy, hset, hlit⟩ => hhit ⟨cx, cy, hlit, hset⟩⟩
  by_contra hnone
  have hzero : u.reg VF = 0x00 := hmiss fun cx cy hlit =>
    Bool.eq_false_of_not_eq_true fun hset => hnone ⟨cx, cy, hset, hlit⟩
  rw [hzero] at hvf
  exact absurd hvf (by decide)

end Sys2Proof.Machine
end
